-- ==== Sys2Proof/Word.lean ====
section
/-! DEFINITION. The two word types of the core (spec 00_scope R5: data width 8 bits, address width 16 bits). -/

namespace Sys2Proof

/-- A data byte: A, X, Y, SP, SR and every memory byte (R5). -/
abbrev Byte := BitVec 8

/-- A 16-bit address or program counter (R5). -/
abbrev Word := BitVec 16

end Sys2Proof
end

