-- ==== Sys2Proof/Config.lean ====
section
/-! DEFINITION. What an implementation fixes: the named parameters of spec 00_scope R5, and the free values the spec
leaves to the video-unit collaborator (10_state R60, R61). -/

namespace Sys2Proof

/-- `P_NMI_GATE` (R391): for which value of the I flag the harness services a pending vertical blank. -/
inductive NmiGate where
  | serviceWhenISet
  | serviceWhenIClear
  | always
deriving DecidableEq, Repr

/-- `P_BRK` (R324): how far BRK is carried through. -/
inductive BrkPolicy where
  | vector
  | inert
  | refuse
deriving DecidableEq, Repr

/-- `P_UNLISTED` (R372): what the 24 opcodes without a source behaviour do. -/
inductive UnlistedPolicy where
  | nop
  | refuse
deriving DecidableEq, Repr

/-- The parameters of R5 that a step reads. The field defaults are the defaults R5 takes. The launch values `P_INIT_*` are
arguments of the load (`Machine/Load.lean`), since only the load reads them. -/
structure Params where
  nmiGate      : NmiGate        := .serviceWhenISet
  brk          : BrkPolicy      := .vector
  unlisted     : UnlistedPolicy := .nop
  vblankPeriod : Nat            := 30001
  renderPeriod : Nat            := 16235
deriving DecidableEq, Repr

/-- The eight video-unit registers, in address order 0x2000-0x2007 (R60, R81). -/
inductive VideoReg where
  | control1
  | control2
  | status
  | spriteAddress
  | spriteData
  | scroll
  | vramAddress
  | vramData
deriving DecidableEq, Repr

/-- A frame buffer of the host, by its identity: the argument of `exec`, which the core hands on to `VU.render` and never looks
into (R390, R60; log entry 17). -/
abbrev FrameBuffer := Nat

/-- One call the core makes to the video unit, with its arguments (R61: each call is recorded as an event). `VU.init` has no
constructor because the core never calls it (R442). -/
inductive VideoCall where
  | read (r : VideoReg)
  | write (r : VideoReg) (v : Byte)
  | dmaWrite (buffer : List Byte)
  | setPatternMemory (offset : Nat) (buffer : List Byte)
  | setBlank (flag : Bool)
  | getBlank
  | render (outputBuffer : FrameBuffer)
deriving DecidableEq, Repr

/-- FREE VALUE (log entry 5; R61 "a draw (any value)"): the byte a `VU.read` returns. `draw` is the state's counter of draws and
`calls` the calls made so far, so that no two draws of a run are tied together. -/
opaque Config.videoReadByte (draw : Nat) (calls : List VideoCall) : Byte

/-- FREE VALUE (log entry 5; R61 "may change vu, including its blank flag"): the blank flag after a `VU.read` or `VU.write`. -/
opaque Config.videoBlankAfter (draw : Nat) (calls : List VideoCall) : Bool

end Sys2Proof
end

