-- ==== Sys2Proof/Syntax.lean ====
section
/-! DEFINITION. The instruction set as syntax: mnemonics, addressing modes with their operand bytes, and `Instr`, one constructor
per row of spec/opcode_table.json (spec 30_encoding R145). -/

namespace Sys2Proof

/-- The 78 mnemonics of the opcode table. `nopStar` is the table's `NOP*`, the illegal NOPs. -/
inductive Mnemonic where
  -- documented 6502 mnemonics (56)
  | adc | and | asl | bcc | bcs | beq | bit | bmi | bne | bpl | brk | bvc | bvs | clc | cld | cli | clv | cmp | cpx
  | cpy | dec | dex | dey | eor | inc | inx | iny | jmp | jsr | lda | ldx | ldy | lsr | nop | ora | pha | php | pla
  | plp | rol | ror | rti | rts | sbc | sec | sed | sei | sta | stx | sty | tax | tay | tsx | txa | txs | tya
  -- undocumented operations the source names (10)
  | dcp | isb | lax | rla | rra | sax | slo | sre | tas | usbc
  -- the illegal NOPs
  | nopStar
  -- undocumented operations the source does not name (11)
  | alr | anc | ane | arr | jam | las | lxa | sbx | sha | shx | shy
deriving DecidableEq, Repr

/-- The addressing modes that touch memory, with their operand (R172, R176-R181): `z` is the byte `b1` of the zero-page modes,
`a` the word `addr16 = {b2, b1}` of the absolute ones (R144). -/
inductive MemMode where
  | zp (z : Byte)
  | zpx (z : Byte)
  | zpy (z : Byte)
  | abs (a : Word)
  | abx (a : Word)
  | aby (a : Word)
  | izx (z : Byte)
  | izy (z : Byte)
deriving DecidableEq, Repr

/-- Where an operand is found: the operand byte itself (R174) or memory (R172). -/
inductive Source where
  | imm (v : Byte)
  | mem (m : MemMode)
deriving DecidableEq, Repr

/-- An addressing mode with its operand bytes (R140, R144). -/
inductive Operand where
  | imp                    -- implied, no operand byte
  | pad (padding : Byte)   -- BRK's implied mode: one padding byte, fetched and ignored (R146)
  | acc                    -- accumulator
  | src (o : Source)       -- immediate and the memory modes
  | ind (a : Word)         -- (indirect), JMP only
  | rel (d : Int)          -- relative: the signed displacement disp8
deriving DecidableEq, Repr

/-- What the descriptor of R145 says of an instruction besides its opcode. -/
structure Form where
  mnemonic : Mnemonic
  operand  : Operand
deriving DecidableEq, Repr

/-- The instructions: one constructor per row of spec/opcode_table.json, those with operand bytes (formats F2 and F3 of R140)
first, then the one-byte ones (F1), each in opcode order. (Lean's runtime numbers only its first 244 constructors when they
have fields, so the one-byte rows stand last.) A constructor's name is its mnemonic and mode; where one mnemonic and mode have
several opcodes, the opcode too. Ignored operand bytes are kept, so that an encoding loses no bit. -/
inductive Instr where
  -- formats F2 and F3: with operand bytes
  | brk (padding : Byte)
  | oraIzx (z : Byte)
  | sloIzx (z : Byte)
  | nopStarZp04 (z : Byte)
  | oraZp (z : Byte)
  | aslZp (z : Byte)
  | sloZp (z : Byte)
  | oraImm (v : Byte)
  | ancImm0B (v : Byte)
  | nopStarAbs (a : Word)
  | oraAbs (a : Word)
  | aslAbs (a : Word)
  | sloAbs (a : Word)
  | bpl (d : Int)
  | oraIzy (z : Byte)
  | sloIzy (z : Byte)
  | nopStarZpx14 (z : Byte)
  | oraZpx (z : Byte)
  | aslZpx (z : Byte)
  | sloZpx (z : Byte)
  | oraAby (a : Word)
  | sloAby (a : Word)
  | nopStarAbx1C (a : Word)
  | oraAbx (a : Word)
  | aslAbx (a : Word)
  | sloAbx (a : Word)
  | jsrAbs (a : Word)
  | andIzx (z : Byte)
  | rlaIzx (z : Byte)
  | bitZp (z : Byte)
  | andZp (z : Byte)
  | rolZp (z : Byte)
  | rlaZp (z : Byte)
  | andImm (v : Byte)
  | ancImm2B (v : Byte)
  | bitAbs (a : Word)
  | andAbs (a : Word)
  | rolAbs (a : Word)
  | rlaAbs (a : Word)
  | bmi (d : Int)
  | andIzy (z : Byte)
  | rlaIzy (z : Byte)
  | nopStarZpx34 (z : Byte)
  | andZpx (z : Byte)
  | rolZpx (z : Byte)
  | rlaZpx (z : Byte)
  | andAby (a : Word)
  | rlaAby (a : Word)
  | nopStarAbx3C (a : Word)
  | andAbx (a : Word)
  | rolAbx (a : Word)
  | rlaAbx (a : Word)
  | eorIzx (z : Byte)
  | sreIzx (z : Byte)
  | nopStarZp44 (z : Byte)
  | eorZp (z : Byte)
  | lsrZp (z : Byte)
  | sreZp (z : Byte)
  | eorImm (v : Byte)
  | alrImm (v : Byte)
  | jmpAbs (a : Word)
  | eorAbs (a : Word)
  | lsrAbs (a : Word)
  | sreAbs (a : Word)
  | bvc (d : Int)
  | eorIzy (z : Byte)
  | sreIzy (z : Byte)
  | nopStarZpx54 (z : Byte)
  | eorZpx (z : Byte)
  | lsrZpx (z : Byte)
  | sreZpx (z : Byte)
  | eorAby (a : Word)
  | sreAby (a : Word)
  | nopStarAbx5C (a : Word)
  | eorAbx (a : Word)
  | lsrAbx (a : Word)
  | sreAbx (a : Word)
  | adcIzx (z : Byte)
  | rraIzx (z : Byte)
  | nopStarZp64 (z : Byte)
  | adcZp (z : Byte)
  | rorZp (z : Byte)
  | rraZp (z : Byte)
  | adcImm (v : Byte)
  | arrImm (v : Byte)
  | jmpInd (a : Word)
  | adcAbs (a : Word)
  | rorAbs (a : Word)
  | rraAbs (a : Word)
  | bvs (d : Int)
  | adcIzy (z : Byte)
  | rraIzy (z : Byte)
  | nopStarZpx74 (z : Byte)
  | adcZpx (z : Byte)
  | rorZpx (z : Byte)
  | rraZpx (z : Byte)
  | adcAby (a : Word)
  | rraAby (a : Word)
  | nopStarAbx7C (a : Word)
  | adcAbx (a : Word)
  | rorAbx (a : Word)
  | rraAbx (a : Word)
  | nopStarImm80 (v : Byte)
  | staIzx (z : Byte)
  | nopStarImm82 (v : Byte)
  | saxIzx (z : Byte)
  | styZp (z : Byte)
  | staZp (z : Byte)
  | stxZp (z : Byte)
  | saxZp (z : Byte)
  | nopStarImm89 (v : Byte)
  | aneImm (v : Byte)
  | styAbs (a : Word)
  | staAbs (a : Word)
  | stxAbs (a : Word)
  | saxAbs (a : Word)
  | bcc (d : Int)
  | staIzy (z : Byte)
  | shaIzy (z : Byte)
  | styZpx (z : Byte)
  | staZpx (z : Byte)
  | stxZpy (z : Byte)
  | saxZpy (z : Byte)
  | staAby (a : Word)
  | tasAby (a : Word)
  | shyAbx (a : Word)
  | staAbx (a : Word)
  | shxAby (a : Word)
  | shaAby (a : Word)
  | ldyImm (v : Byte)
  | ldaIzx (z : Byte)
  | ldxImm (v : Byte)
  | laxIzx (z : Byte)
  | ldyZp (z : Byte)
  | ldaZp (z : Byte)
  | ldxZp (z : Byte)
  | laxZp (z : Byte)
  | ldaImm (v : Byte)
  | lxaImm (v : Byte)
  | ldyAbs (a : Word)
  | ldaAbs (a : Word)
  | ldxAbs (a : Word)
  | laxAbs (a : Word)
  | bcs (d : Int)
  | ldaIzy (z : Byte)
  | laxIzy (z : Byte)
  | ldyZpx (z : Byte)
  | ldaZpx (z : Byte)
  | ldxZpy (z : Byte)
  | laxZpy (z : Byte)
  | ldaAby (a : Word)
  | lasAby (a : Word)
  | ldyAbx (a : Word)
  | ldaAbx (a : Word)
  | ldxAby (a : Word)
  | laxAby (a : Word)
  | cpyImm (v : Byte)
  | cmpIzx (z : Byte)
  | nopStarImmC2 (v : Byte)
  | dcpIzx (z : Byte)
  | cpyZp (z : Byte)
  | cmpZp (z : Byte)
  | decZp (z : Byte)
  | dcpZp (z : Byte)
  | cmpImm (v : Byte)
  | sbxImm (v : Byte)
  | cpyAbs (a : Word)
  | cmpAbs (a : Word)
  | decAbs (a : Word)
  | dcpAbs (a : Word)
  | bne (d : Int)
  | cmpIzy (z : Byte)
  | dcpIzy (z : Byte)
  | nopStarZpxD4 (z : Byte)
  | cmpZpx (z : Byte)
  | decZpx (z : Byte)
  | dcpZpx (z : Byte)
  | cmpAby (a : Word)
  | dcpAby (a : Word)
  | nopStarAbxDC (a : Word)
  | cmpAbx (a : Word)
  | decAbx (a : Word)
  | dcpAbx (a : Word)
  | cpxImm (v : Byte)
  | sbcIzx (z : Byte)
  | nopStarImmE2 (v : Byte)
  | isbIzx (z : Byte)
  | cpxZp (z : Byte)
  | sbcZp (z : Byte)
  | incZp (z : Byte)
  | isbZp (z : Byte)
  | sbcImm (v : Byte)
  | usbcImm (v : Byte)
  | cpxAbs (a : Word)
  | sbcAbs (a : Word)
  | incAbs (a : Word)
  | isbAbs (a : Word)
  | beq (d : Int)
  | sbcIzy (z : Byte)
  | isbIzy (z : Byte)
  | nopStarZpxF4 (z : Byte)
  | sbcZpx (z : Byte)
  | incZpx (z : Byte)
  | isbZpx (z : Byte)
  | sbcAby (a : Word)
  | isbAby (a : Word)
  | nopStarAbxFC (a : Word)
  | sbcAbx (a : Word)
  | incAbx (a : Word)
  | isbAbx (a : Word)
  -- format F1: the opcode byte alone
  | jam02
  | php
  | aslAcc
  | jam12
  | clc
  | nopStar1A
  | jam22
  | plp
  | rolAcc
  | jam32
  | sec
  | nopStar3A
  | rti
  | jam42
  | pha
  | lsrAcc
  | jam52
  | cli
  | nopStar5A
  | rts
  | jam62
  | pla
  | rorAcc
  | jam72
  | sei
  | nopStar7A
  | dey
  | txa
  | jam92
  | tya
  | txs
  | tay
  | tax
  | jamB2
  | clv
  | tsx
  | iny
  | dex
  | jamD2
  | cld
  | nopStarDA
  | inx
  | nop
  | jamF2
  | sed
  | nopStarFA
deriving DecidableEq, Repr

/-- The mnemonic and the addressing mode of each instruction (R145, the map by mnemonic). -/
def Instr.form : Instr → Form
  | .brk padding => ⟨.brk, .pad padding⟩
  | .oraIzx z => ⟨.ora, .src (.mem (.izx z))⟩
  | .jam02 => ⟨.jam, .imp⟩
  | .sloIzx z => ⟨.slo, .src (.mem (.izx z))⟩
  | .nopStarZp04 z => ⟨.nopStar, .src (.mem (.zp z))⟩
  | .oraZp z => ⟨.ora, .src (.mem (.zp z))⟩
  | .aslZp z => ⟨.asl, .src (.mem (.zp z))⟩
  | .sloZp z => ⟨.slo, .src (.mem (.zp z))⟩
  | .php => ⟨.php, .imp⟩
  | .oraImm v => ⟨.ora, .src (.imm v)⟩
  | .aslAcc => ⟨.asl, .acc⟩
  | .ancImm0B v => ⟨.anc, .src (.imm v)⟩
  | .nopStarAbs a => ⟨.nopStar, .src (.mem (.abs a))⟩
  | .oraAbs a => ⟨.ora, .src (.mem (.abs a))⟩
  | .aslAbs a => ⟨.asl, .src (.mem (.abs a))⟩
  | .sloAbs a => ⟨.slo, .src (.mem (.abs a))⟩
  | .bpl d => ⟨.bpl, .rel d⟩
  | .oraIzy z => ⟨.ora, .src (.mem (.izy z))⟩
  | .jam12 => ⟨.jam, .imp⟩
  | .sloIzy z => ⟨.slo, .src (.mem (.izy z))⟩
  | .nopStarZpx14 z => ⟨.nopStar, .src (.mem (.zpx z))⟩
  | .oraZpx z => ⟨.ora, .src (.mem (.zpx z))⟩
  | .aslZpx z => ⟨.asl, .src (.mem (.zpx z))⟩
  | .sloZpx z => ⟨.slo, .src (.mem (.zpx z))⟩
  | .clc => ⟨.clc, .imp⟩
  | .oraAby a => ⟨.ora, .src (.mem (.aby a))⟩
  | .nopStar1A => ⟨.nopStar, .imp⟩
  | .sloAby a => ⟨.slo, .src (.mem (.aby a))⟩
  | .nopStarAbx1C a => ⟨.nopStar, .src (.mem (.abx a))⟩
  | .oraAbx a => ⟨.ora, .src (.mem (.abx a))⟩
  | .aslAbx a => ⟨.asl, .src (.mem (.abx a))⟩
  | .sloAbx a => ⟨.slo, .src (.mem (.abx a))⟩
  | .jsrAbs a => ⟨.jsr, .src (.mem (.abs a))⟩
  | .andIzx z => ⟨.and, .src (.mem (.izx z))⟩
  | .jam22 => ⟨.jam, .imp⟩
  | .rlaIzx z => ⟨.rla, .src (.mem (.izx z))⟩
  | .bitZp z => ⟨.bit, .src (.mem (.zp z))⟩
  | .andZp z => ⟨.and, .src (.mem (.zp z))⟩
  | .rolZp z => ⟨.rol, .src (.mem (.zp z))⟩
  | .rlaZp z => ⟨.rla, .src (.mem (.zp z))⟩
  | .plp => ⟨.plp, .imp⟩
  | .andImm v => ⟨.and, .src (.imm v)⟩
  | .rolAcc => ⟨.rol, .acc⟩
  | .ancImm2B v => ⟨.anc, .src (.imm v)⟩
  | .bitAbs a => ⟨.bit, .src (.mem (.abs a))⟩
  | .andAbs a => ⟨.and, .src (.mem (.abs a))⟩
  | .rolAbs a => ⟨.rol, .src (.mem (.abs a))⟩
  | .rlaAbs a => ⟨.rla, .src (.mem (.abs a))⟩
  | .bmi d => ⟨.bmi, .rel d⟩
  | .andIzy z => ⟨.and, .src (.mem (.izy z))⟩
  | .jam32 => ⟨.jam, .imp⟩
  | .rlaIzy z => ⟨.rla, .src (.mem (.izy z))⟩
  | .nopStarZpx34 z => ⟨.nopStar, .src (.mem (.zpx z))⟩
  | .andZpx z => ⟨.and, .src (.mem (.zpx z))⟩
  | .rolZpx z => ⟨.rol, .src (.mem (.zpx z))⟩
  | .rlaZpx z => ⟨.rla, .src (.mem (.zpx z))⟩
  | .sec => ⟨.sec, .imp⟩
  | .andAby a => ⟨.and, .src (.mem (.aby a))⟩
  | .nopStar3A => ⟨.nopStar, .imp⟩
  | .rlaAby a => ⟨.rla, .src (.mem (.aby a))⟩
  | .nopStarAbx3C a => ⟨.nopStar, .src (.mem (.abx a))⟩
  | .andAbx a => ⟨.and, .src (.mem (.abx a))⟩
  | .rolAbx a => ⟨.rol, .src (.mem (.abx a))⟩
  | .rlaAbx a => ⟨.rla, .src (.mem (.abx a))⟩
  | .rti => ⟨.rti, .imp⟩
  | .eorIzx z => ⟨.eor, .src (.mem (.izx z))⟩
  | .jam42 => ⟨.jam, .imp⟩
  | .sreIzx z => ⟨.sre, .src (.mem (.izx z))⟩
  | .nopStarZp44 z => ⟨.nopStar, .src (.mem (.zp z))⟩
  | .eorZp z => ⟨.eor, .src (.mem (.zp z))⟩
  | .lsrZp z => ⟨.lsr, .src (.mem (.zp z))⟩
  | .sreZp z => ⟨.sre, .src (.mem (.zp z))⟩
  | .pha => ⟨.pha, .imp⟩
  | .eorImm v => ⟨.eor, .src (.imm v)⟩
  | .lsrAcc => ⟨.lsr, .acc⟩
  | .alrImm v => ⟨.alr, .src (.imm v)⟩
  | .jmpAbs a => ⟨.jmp, .src (.mem (.abs a))⟩
  | .eorAbs a => ⟨.eor, .src (.mem (.abs a))⟩
  | .lsrAbs a => ⟨.lsr, .src (.mem (.abs a))⟩
  | .sreAbs a => ⟨.sre, .src (.mem (.abs a))⟩
  | .bvc d => ⟨.bvc, .rel d⟩
  | .eorIzy z => ⟨.eor, .src (.mem (.izy z))⟩
  | .jam52 => ⟨.jam, .imp⟩
  | .sreIzy z => ⟨.sre, .src (.mem (.izy z))⟩
  | .nopStarZpx54 z => ⟨.nopStar, .src (.mem (.zpx z))⟩
  | .eorZpx z => ⟨.eor, .src (.mem (.zpx z))⟩
  | .lsrZpx z => ⟨.lsr, .src (.mem (.zpx z))⟩
  | .sreZpx z => ⟨.sre, .src (.mem (.zpx z))⟩
  | .cli => ⟨.cli, .imp⟩
  | .eorAby a => ⟨.eor, .src (.mem (.aby a))⟩
  | .nopStar5A => ⟨.nopStar, .imp⟩
  | .sreAby a => ⟨.sre, .src (.mem (.aby a))⟩
  | .nopStarAbx5C a => ⟨.nopStar, .src (.mem (.abx a))⟩
  | .eorAbx a => ⟨.eor, .src (.mem (.abx a))⟩
  | .lsrAbx a => ⟨.lsr, .src (.mem (.abx a))⟩
  | .sreAbx a => ⟨.sre, .src (.mem (.abx a))⟩
  | .rts => ⟨.rts, .imp⟩
  | .adcIzx z => ⟨.adc, .src (.mem (.izx z))⟩
  | .jam62 => ⟨.jam, .imp⟩
  | .rraIzx z => ⟨.rra, .src (.mem (.izx z))⟩
  | .nopStarZp64 z => ⟨.nopStar, .src (.mem (.zp z))⟩
  | .adcZp z => ⟨.adc, .src (.mem (.zp z))⟩
  | .rorZp z => ⟨.ror, .src (.mem (.zp z))⟩
  | .rraZp z => ⟨.rra, .src (.mem (.zp z))⟩
  | .pla => ⟨.pla, .imp⟩
  | .adcImm v => ⟨.adc, .src (.imm v)⟩
  | .rorAcc => ⟨.ror, .acc⟩
  | .arrImm v => ⟨.arr, .src (.imm v)⟩
  | .jmpInd a => ⟨.jmp, .ind a⟩
  | .adcAbs a => ⟨.adc, .src (.mem (.abs a))⟩
  | .rorAbs a => ⟨.ror, .src (.mem (.abs a))⟩
  | .rraAbs a => ⟨.rra, .src (.mem (.abs a))⟩
  | .bvs d => ⟨.bvs, .rel d⟩
  | .adcIzy z => ⟨.adc, .src (.mem (.izy z))⟩
  | .jam72 => ⟨.jam, .imp⟩
  | .rraIzy z => ⟨.rra, .src (.mem (.izy z))⟩
  | .nopStarZpx74 z => ⟨.nopStar, .src (.mem (.zpx z))⟩
  | .adcZpx z => ⟨.adc, .src (.mem (.zpx z))⟩
  | .rorZpx z => ⟨.ror, .src (.mem (.zpx z))⟩
  | .rraZpx z => ⟨.rra, .src (.mem (.zpx z))⟩
  | .sei => ⟨.sei, .imp⟩
  | .adcAby a => ⟨.adc, .src (.mem (.aby a))⟩
  | .nopStar7A => ⟨.nopStar, .imp⟩
  | .rraAby a => ⟨.rra, .src (.mem (.aby a))⟩
  | .nopStarAbx7C a => ⟨.nopStar, .src (.mem (.abx a))⟩
  | .adcAbx a => ⟨.adc, .src (.mem (.abx a))⟩
  | .rorAbx a => ⟨.ror, .src (.mem (.abx a))⟩
  | .rraAbx a => ⟨.rra, .src (.mem (.abx a))⟩
  | .nopStarImm80 v => ⟨.nopStar, .src (.imm v)⟩
  | .staIzx z => ⟨.sta, .src (.mem (.izx z))⟩
  | .nopStarImm82 v => ⟨.nopStar, .src (.imm v)⟩
  | .saxIzx z => ⟨.sax, .src (.mem (.izx z))⟩
  | .styZp z => ⟨.sty, .src (.mem (.zp z))⟩
  | .staZp z => ⟨.sta, .src (.mem (.zp z))⟩
  | .stxZp z => ⟨.stx, .src (.mem (.zp z))⟩
  | .saxZp z => ⟨.sax, .src (.mem (.zp z))⟩
  | .dey => ⟨.dey, .imp⟩
  | .nopStarImm89 v => ⟨.nopStar, .src (.imm v)⟩
  | .txa => ⟨.txa, .imp⟩
  | .aneImm v => ⟨.ane, .src (.imm v)⟩
  | .styAbs a => ⟨.sty, .src (.mem (.abs a))⟩
  | .staAbs a => ⟨.sta, .src (.mem (.abs a))⟩
  | .stxAbs a => ⟨.stx, .src (.mem (.abs a))⟩
  | .saxAbs a => ⟨.sax, .src (.mem (.abs a))⟩
  | .bcc d => ⟨.bcc, .rel d⟩
  | .staIzy z => ⟨.sta, .src (.mem (.izy z))⟩
  | .jam92 => ⟨.jam, .imp⟩
  | .shaIzy z => ⟨.sha, .src (.mem (.izy z))⟩
  | .styZpx z => ⟨.sty, .src (.mem (.zpx z))⟩
  | .staZpx z => ⟨.sta, .src (.mem (.zpx z))⟩
  | .stxZpy z => ⟨.stx, .src (.mem (.zpy z))⟩
  | .saxZpy z => ⟨.sax, .src (.mem (.zpy z))⟩
  | .tya => ⟨.tya, .imp⟩
  | .staAby a => ⟨.sta, .src (.mem (.aby a))⟩
  | .txs => ⟨.txs, .imp⟩
  | .tasAby a => ⟨.tas, .src (.mem (.aby a))⟩
  | .shyAbx a => ⟨.shy, .src (.mem (.abx a))⟩
  | .staAbx a => ⟨.sta, .src (.mem (.abx a))⟩
  | .shxAby a => ⟨.shx, .src (.mem (.aby a))⟩
  | .shaAby a => ⟨.sha, .src (.mem (.aby a))⟩
  | .ldyImm v => ⟨.ldy, .src (.imm v)⟩
  | .ldaIzx z => ⟨.lda, .src (.mem (.izx z))⟩
  | .ldxImm v => ⟨.ldx, .src (.imm v)⟩
  | .laxIzx z => ⟨.lax, .src (.mem (.izx z))⟩
  | .ldyZp z => ⟨.ldy, .src (.mem (.zp z))⟩
  | .ldaZp z => ⟨.lda, .src (.mem (.zp z))⟩
  | .ldxZp z => ⟨.ldx, .src (.mem (.zp z))⟩
  | .laxZp z => ⟨.lax, .src (.mem (.zp z))⟩
  | .tay => ⟨.tay, .imp⟩
  | .ldaImm v => ⟨.lda, .src (.imm v)⟩
  | .tax => ⟨.tax, .imp⟩
  | .lxaImm v => ⟨.lxa, .src (.imm v)⟩
  | .ldyAbs a => ⟨.ldy, .src (.mem (.abs a))⟩
  | .ldaAbs a => ⟨.lda, .src (.mem (.abs a))⟩
  | .ldxAbs a => ⟨.ldx, .src (.mem (.abs a))⟩
  | .laxAbs a => ⟨.lax, .src (.mem (.abs a))⟩
  | .bcs d => ⟨.bcs, .rel d⟩
  | .ldaIzy z => ⟨.lda, .src (.mem (.izy z))⟩
  | .jamB2 => ⟨.jam, .imp⟩
  | .laxIzy z => ⟨.lax, .src (.mem (.izy z))⟩
  | .ldyZpx z => ⟨.ldy, .src (.mem (.zpx z))⟩
  | .ldaZpx z => ⟨.lda, .src (.mem (.zpx z))⟩
  | .ldxZpy z => ⟨.ldx, .src (.mem (.zpy z))⟩
  | .laxZpy z => ⟨.lax, .src (.mem (.zpy z))⟩
  | .clv => ⟨.clv, .imp⟩
  | .ldaAby a => ⟨.lda, .src (.mem (.aby a))⟩
  | .tsx => ⟨.tsx, .imp⟩
  | .lasAby a => ⟨.las, .src (.mem (.aby a))⟩
  | .ldyAbx a => ⟨.ldy, .src (.mem (.abx a))⟩
  | .ldaAbx a => ⟨.lda, .src (.mem (.abx a))⟩
  | .ldxAby a => ⟨.ldx, .src (.mem (.aby a))⟩
  | .laxAby a => ⟨.lax, .src (.mem (.aby a))⟩
  | .cpyImm v => ⟨.cpy, .src (.imm v)⟩
  | .cmpIzx z => ⟨.cmp, .src (.mem (.izx z))⟩
  | .nopStarImmC2 v => ⟨.nopStar, .src (.imm v)⟩
  | .dcpIzx z => ⟨.dcp, .src (.mem (.izx z))⟩
  | .cpyZp z => ⟨.cpy, .src (.mem (.zp z))⟩
  | .cmpZp z => ⟨.cmp, .src (.mem (.zp z))⟩
  | .decZp z => ⟨.dec, .src (.mem (.zp z))⟩
  | .dcpZp z => ⟨.dcp, .src (.mem (.zp z))⟩
  | .iny => ⟨.iny, .imp⟩
  | .cmpImm v => ⟨.cmp, .src (.imm v)⟩
  | .dex => ⟨.dex, .imp⟩
  | .sbxImm v => ⟨.sbx, .src (.imm v)⟩
  | .cpyAbs a => ⟨.cpy, .src (.mem (.abs a))⟩
  | .cmpAbs a => ⟨.cmp, .src (.mem (.abs a))⟩
  | .decAbs a => ⟨.dec, .src (.mem (.abs a))⟩
  | .dcpAbs a => ⟨.dcp, .src (.mem (.abs a))⟩
  | .bne d => ⟨.bne, .rel d⟩
  | .cmpIzy z => ⟨.cmp, .src (.mem (.izy z))⟩
  | .jamD2 => ⟨.jam, .imp⟩
  | .dcpIzy z => ⟨.dcp, .src (.mem (.izy z))⟩
  | .nopStarZpxD4 z => ⟨.nopStar, .src (.mem (.zpx z))⟩
  | .cmpZpx z => ⟨.cmp, .src (.mem (.zpx z))⟩
  | .decZpx z => ⟨.dec, .src (.mem (.zpx z))⟩
  | .dcpZpx z => ⟨.dcp, .src (.mem (.zpx z))⟩
  | .cld => ⟨.cld, .imp⟩
  | .cmpAby a => ⟨.cmp, .src (.mem (.aby a))⟩
  | .nopStarDA => ⟨.nopStar, .imp⟩
  | .dcpAby a => ⟨.dcp, .src (.mem (.aby a))⟩
  | .nopStarAbxDC a => ⟨.nopStar, .src (.mem (.abx a))⟩
  | .cmpAbx a => ⟨.cmp, .src (.mem (.abx a))⟩
  | .decAbx a => ⟨.dec, .src (.mem (.abx a))⟩
  | .dcpAbx a => ⟨.dcp, .src (.mem (.abx a))⟩
  | .cpxImm v => ⟨.cpx, .src (.imm v)⟩
  | .sbcIzx z => ⟨.sbc, .src (.mem (.izx z))⟩
  | .nopStarImmE2 v => ⟨.nopStar, .src (.imm v)⟩
  | .isbIzx z => ⟨.isb, .src (.mem (.izx z))⟩
  | .cpxZp z => ⟨.cpx, .src (.mem (.zp z))⟩
  | .sbcZp z => ⟨.sbc, .src (.mem (.zp z))⟩
  | .incZp z => ⟨.inc, .src (.mem (.zp z))⟩
  | .isbZp z => ⟨.isb, .src (.mem (.zp z))⟩
  | .inx => ⟨.inx, .imp⟩
  | .sbcImm v => ⟨.sbc, .src (.imm v)⟩
  | .nop => ⟨.nop, .imp⟩
  | .usbcImm v => ⟨.usbc, .src (.imm v)⟩
  | .cpxAbs a => ⟨.cpx, .src (.mem (.abs a))⟩
  | .sbcAbs a => ⟨.sbc, .src (.mem (.abs a))⟩
  | .incAbs a => ⟨.inc, .src (.mem (.abs a))⟩
  | .isbAbs a => ⟨.isb, .src (.mem (.abs a))⟩
  | .beq d => ⟨.beq, .rel d⟩
  | .sbcIzy z => ⟨.sbc, .src (.mem (.izy z))⟩
  | .jamF2 => ⟨.jam, .imp⟩
  | .isbIzy z => ⟨.isb, .src (.mem (.izy z))⟩
  | .nopStarZpxF4 z => ⟨.nopStar, .src (.mem (.zpx z))⟩
  | .sbcZpx z => ⟨.sbc, .src (.mem (.zpx z))⟩
  | .incZpx z => ⟨.inc, .src (.mem (.zpx z))⟩
  | .isbZpx z => ⟨.isb, .src (.mem (.zpx z))⟩
  | .sed => ⟨.sed, .imp⟩
  | .sbcAby a => ⟨.sbc, .src (.mem (.aby a))⟩
  | .nopStarFA => ⟨.nopStar, .imp⟩
  | .isbAby a => ⟨.isb, .src (.mem (.aby a))⟩
  | .nopStarAbxFC a => ⟨.nopStar, .src (.mem (.abx a))⟩
  | .sbcAbx a => ⟨.sbc, .src (.mem (.abx a))⟩
  | .incAbx a => ⟨.inc, .src (.mem (.abx a))⟩
  | .isbAbx a => ⟨.isb, .src (.mem (.abx a))⟩

/-- The mnemonic of an instruction (R145). -/
def Instr.mnemonic (i : Instr) : Mnemonic := i.form.mnemonic

/-- The addressing mode and operand bytes of an instruction (R145). -/
def Instr.operand (i : Instr) : Operand := i.form.operand

end Sys2Proof
end

