-- ==== Sys2Proof/WellFormed.lean ====
section
/-! DEFINITION. Which instructions have an encoding. The operand types carry the widths of spec 30_encoding R144; the one check
left is the range of a branch displacement, which the syntax holds as an integer. -/

namespace Sys2Proof

/-- R144: `disp8` is a signed displacement -128..127. Every other operand is a byte or a word of exactly its width. -/
def Operand.wellFormed : Operand → Bool
  | .imp | .pad _ | .acc | .src _ | .ind _ => true
  | .rel d => decide (-128 ≤ d) && decide (d ≤ 127)

/-- An instruction is well formed when its operand can be encoded. -/
def Instr.wellFormed (i : Instr) : Bool := i.operand.wellFormed

end Sys2Proof
end

