-- ==== Sys2Proof/Decode.lean ====
section
/-! DEFINITION. From bytes to instructions and back (spec 30_encoding): byte order, the descriptor's length, class and flag-pass
fields, the decoder as the 16 rows of R145's map, and the encoder. -/

namespace Sys2Proof

/-- `lo(w)`: bits 7..0 (R6). -/
def loByte (w : Word) : Byte := w.extractLsb' 0 8

/-- `hi(w)`: bits 15..8 (R6). -/
def hiByte (w : Word) : Byte := w.extractLsb' 8 8

/-- `{h, l}`: the word `h*256 + l` (R7); every 16-bit quantity is little-endian (R91). -/
def mkWord (h l : Byte) : Word := h ++ l

/-- `sext_8(b)` (R7): the signed displacement of the relative mode (R144). -/
def dispOf (b : Byte) : Int := b.toInt

/-- The byte of a displacement: the inverse of `dispOf` on -128..127. -/
def dispByte (d : Int) : Byte := BitVec.ofInt 8 d

/-! ## The descriptor -/

/-- The classes of R145's legend. -/
inductive OpClass where
  | documented
  | undocumentedListed
  | illegalNop
  | undocumentedUnlisted
deriving DecidableEq, Repr

/-- The class of each mnemonic (R145: `*` the named undocumented ones, `NOP*`, and `#` the 24 opcodes of R361-R371). -/
def Mnemonic.opClass : Mnemonic → OpClass
  | .adc | .and | .asl | .bcc | .bcs | .beq | .bit | .bmi | .bne | .bpl | .brk | .bvc | .bvs | .clc | .cld | .cli
  | .clv | .cmp | .cpx | .cpy | .dec | .dex | .dey | .eor | .inc | .inx | .iny | .jmp | .jsr | .lda | .ldx | .ldy
  | .lsr | .nop | .ora | .pha | .php | .pla | .plp | .rol | .ror | .rti | .rts | .sbc | .sec | .sed | .sei | .sta
  | .stx | .sty | .tax | .tay | .tsx | .txa | .txs | .tya => .documented
  | .dcp | .isb | .lax | .rla | .rra | .sax | .slo | .sre | .tas | .usbc => .undocumentedListed
  | .nopStar => .illegalNop
  | .alr | .anc | .ane | .arr | .jam | .las | .lxa | .sbx | .sha | .shx | .shy => .undocumentedUnlisted

/-- The length of an operand's mode (R146): opcode byte and operand bytes. BRK's padding byte makes its length 2. -/
def Operand.length : Operand → Nat
  | .imp | .acc => 1
  | .pad _ | .rel _ | .src (.imm _) => 2
  | .src (.mem (.zp _)) | .src (.mem (.zpx _)) | .src (.mem (.zpy _)) => 2
  | .src (.mem (.izx _)) | .src (.mem (.izy _)) => 2
  | .src (.mem (.abs _)) | .src (.mem (.abx _)) | .src (.mem (.aby _)) => 3
  | .ind _ => 3

/-- The descriptor's length field (R145, R146). -/
def Form.length (f : Form) : Nat := f.operand.length

/-- The length of an instruction in bytes. -/
def Instr.length (i : Instr) : Nat := i.form.length

/-- The descriptor's generic-flag-pass field (R147). The shifts take the pass in accumulator mode only. -/
def Form.flagPass (f : Form) : Bool :=
  match f.mnemonic with
  | .adc | .and | .eor | .isb | .lax | .lda | .ora | .pla | .rla | .rra | .sbc | .slo | .sre | .tax | .tay
  | .txa | .tya | .usbc => true
  | .asl | .lsr | .rol | .ror => f.operand == .acc
  | .alr | .anc | .ane | .arr | .bcc | .bcs | .beq | .bit | .bmi | .bne | .bpl | .brk | .bvc | .bvs | .clc
  | .cld | .cli | .clv | .cmp | .cpx | .cpy | .dcp | .dec | .dex | .dey | .inc | .inx | .iny | .jam | .jmp
  | .jsr | .las | .ldx | .ldy | .lxa | .nop | .nopStar | .pha | .php | .plp | .rti | .rts | .sax | .sbx
  | .sec | .sed | .sei | .sha | .shx | .shy | .sta | .stx | .sty | .tas | .tsx | .txs => false

/-! ## The decoder -/

/-- What an opcode byte selects: an instruction that is complete, or one that still waits for its operand byte (plain or signed)
or its two operand bytes (R140 formats F1, F2, F3). -/
inductive Shape where
  | fixed (i : Instr)
  | byte (f : Byte → Instr)
  | disp (f : Int → Instr)
  | word (f : Word → Instr)

/-- Row 0x0x of R145's map. -/
def opcodeRow0 : List Shape := [
  .byte .brk, .byte .oraIzx, .fixed .jam02, .byte .sloIzx,
  .byte .nopStarZp04, .byte .oraZp, .byte .aslZp, .byte .sloZp,
  .fixed .php, .byte .oraImm, .fixed .aslAcc, .byte .ancImm0B,
  .word .nopStarAbs, .word .oraAbs, .word .aslAbs, .word .sloAbs]

/-- Row 0x1x of R145's map. -/
def opcodeRow1 : List Shape := [
  .disp .bpl, .byte .oraIzy, .fixed .jam12, .byte .sloIzy,
  .byte .nopStarZpx14, .byte .oraZpx, .byte .aslZpx, .byte .sloZpx,
  .fixed .clc, .word .oraAby, .fixed .nopStar1A, .word .sloAby,
  .word .nopStarAbx1C, .word .oraAbx, .word .aslAbx, .word .sloAbx]

/-- Row 0x2x of R145's map. -/
def opcodeRow2 : List Shape := [
  .word .jsrAbs, .byte .andIzx, .fixed .jam22, .byte .rlaIzx,
  .byte .bitZp, .byte .andZp, .byte .rolZp, .byte .rlaZp,
  .fixed .plp, .byte .andImm, .fixed .rolAcc, .byte .ancImm2B,
  .word .bitAbs, .word .andAbs, .word .rolAbs, .word .rlaAbs]

/-- Row 0x3x of R145's map. -/
def opcodeRow3 : List Shape := [
  .disp .bmi, .byte .andIzy, .fixed .jam32, .byte .rlaIzy,
  .byte .nopStarZpx34, .byte .andZpx, .byte .rolZpx, .byte .rlaZpx,
  .fixed .sec, .word .andAby, .fixed .nopStar3A, .word .rlaAby,
  .word .nopStarAbx3C, .word .andAbx, .word .rolAbx, .word .rlaAbx]

/-- Row 0x4x of R145's map. -/
def opcodeRow4 : List Shape := [
  .fixed .rti, .byte .eorIzx, .fixed .jam42, .byte .sreIzx,
  .byte .nopStarZp44, .byte .eorZp, .byte .lsrZp, .byte .sreZp,
  .fixed .pha, .byte .eorImm, .fixed .lsrAcc, .byte .alrImm,
  .word .jmpAbs, .word .eorAbs, .word .lsrAbs, .word .sreAbs]

/-- Row 0x5x of R145's map. -/
def opcodeRow5 : List Shape := [
  .disp .bvc, .byte .eorIzy, .fixed .jam52, .byte .sreIzy,
  .byte .nopStarZpx54, .byte .eorZpx, .byte .lsrZpx, .byte .sreZpx,
  .fixed .cli, .word .eorAby, .fixed .nopStar5A, .word .sreAby,
  .word .nopStarAbx5C, .word .eorAbx, .word .lsrAbx, .word .sreAbx]

/-- Row 0x6x of R145's map. -/
def opcodeRow6 : List Shape := [
  .fixed .rts, .byte .adcIzx, .fixed .jam62, .byte .rraIzx,
  .byte .nopStarZp64, .byte .adcZp, .byte .rorZp, .byte .rraZp,
  .fixed .pla, .byte .adcImm, .fixed .rorAcc, .byte .arrImm,
  .word .jmpInd, .word .adcAbs, .word .rorAbs, .word .rraAbs]

/-- Row 0x7x of R145's map. -/
def opcodeRow7 : List Shape := [
  .disp .bvs, .byte .adcIzy, .fixed .jam72, .byte .rraIzy,
  .byte .nopStarZpx74, .byte .adcZpx, .byte .rorZpx, .byte .rraZpx,
  .fixed .sei, .word .adcAby, .fixed .nopStar7A, .word .rraAby,
  .word .nopStarAbx7C, .word .adcAbx, .word .rorAbx, .word .rraAbx]

/-- Row 0x8x of R145's map. -/
def opcodeRow8 : List Shape := [
  .byte .nopStarImm80, .byte .staIzx, .byte .nopStarImm82, .byte .saxIzx,
  .byte .styZp, .byte .staZp, .byte .stxZp, .byte .saxZp,
  .fixed .dey, .byte .nopStarImm89, .fixed .txa, .byte .aneImm,
  .word .styAbs, .word .staAbs, .word .stxAbs, .word .saxAbs]

/-- Row 0x9x of R145's map. -/
def opcodeRow9 : List Shape := [
  .disp .bcc, .byte .staIzy, .fixed .jam92, .byte .shaIzy,
  .byte .styZpx, .byte .staZpx, .byte .stxZpy, .byte .saxZpy,
  .fixed .tya, .word .staAby, .fixed .txs, .word .tasAby,
  .word .shyAbx, .word .staAbx, .word .shxAby, .word .shaAby]

/-- Row 0xAx of R145's map. -/
def opcodeRowA : List Shape := [
  .byte .ldyImm, .byte .ldaIzx, .byte .ldxImm, .byte .laxIzx,
  .byte .ldyZp, .byte .ldaZp, .byte .ldxZp, .byte .laxZp,
  .fixed .tay, .byte .ldaImm, .fixed .tax, .byte .lxaImm,
  .word .ldyAbs, .word .ldaAbs, .word .ldxAbs, .word .laxAbs]

/-- Row 0xBx of R145's map. -/
def opcodeRowB : List Shape := [
  .disp .bcs, .byte .ldaIzy, .fixed .jamB2, .byte .laxIzy,
  .byte .ldyZpx, .byte .ldaZpx, .byte .ldxZpy, .byte .laxZpy,
  .fixed .clv, .word .ldaAby, .fixed .tsx, .word .lasAby,
  .word .ldyAbx, .word .ldaAbx, .word .ldxAby, .word .laxAby]

/-- Row 0xCx of R145's map. -/
def opcodeRowC : List Shape := [
  .byte .cpyImm, .byte .cmpIzx, .byte .nopStarImmC2, .byte .dcpIzx,
  .byte .cpyZp, .byte .cmpZp, .byte .decZp, .byte .dcpZp,
  .fixed .iny, .byte .cmpImm, .fixed .dex, .byte .sbxImm,
  .word .cpyAbs, .word .cmpAbs, .word .decAbs, .word .dcpAbs]

/-- Row 0xDx of R145's map. -/
def opcodeRowD : List Shape := [
  .disp .bne, .byte .cmpIzy, .fixed .jamD2, .byte .dcpIzy,
  .byte .nopStarZpxD4, .byte .cmpZpx, .byte .decZpx, .byte .dcpZpx,
  .fixed .cld, .word .cmpAby, .fixed .nopStarDA, .word .dcpAby,
  .word .nopStarAbxDC, .word .cmpAbx, .word .decAbx, .word .dcpAbx]

/-- Row 0xEx of R145's map. -/
def opcodeRowE : List Shape := [
  .byte .cpxImm, .byte .sbcIzx, .byte .nopStarImmE2, .byte .isbIzx,
  .byte .cpxZp, .byte .sbcZp, .byte .incZp, .byte .isbZp,
  .fixed .inx, .byte .sbcImm, .fixed .nop, .byte .usbcImm,
  .word .cpxAbs, .word .sbcAbs, .word .incAbs, .word .isbAbs]

/-- Row 0xFx of R145's map. -/
def opcodeRowF : List Shape := [
  .disp .beq, .byte .sbcIzy, .fixed .jamF2, .byte .isbIzy,
  .byte .nopStarZpxF4, .byte .sbcZpx, .byte .incZpx, .byte .isbZpx,
  .fixed .sed, .word .sbcAby, .fixed .nopStarFA, .word .isbAby,
  .word .nopStarAbxFC, .word .sbcAbx, .word .incAbx, .word .isbAbx]

/-- R145's map, row by row. -/
def opcodeRows : List (List Shape) :=
  [opcodeRow0, opcodeRow1, opcodeRow2, opcodeRow3, opcodeRow4, opcodeRow5, opcodeRow6, opcodeRow7] ++
  [opcodeRow8, opcodeRow9, opcodeRowA, opcodeRowB, opcodeRowC, opcodeRowD, opcodeRowE, opcodeRowF]

/-- The decode of an opcode byte: row `op[7:4]`, column `op[3:0]` of R145's map. The map has 16 rows of 16, so the default is
never taken. -/
def shapeOf (op : Byte) : Shape :=
  (opcodeRows.getD (op.toNat / 16) []).getD (op.toNat % 16) (.fixed .nop)

/-- How many operand bytes a shape waits for: the instruction length less one, known from the opcode byte alone (R150). -/
def Shape.operandBytes : Shape → Nat
  | .fixed _ => 0
  | .byte _ | .disp _ => 1
  | .word _ => 2

/-- The instruction of a shape, given its operand bytes (R144: `addr16 = {b2, b1}`, `disp8 = sext_8(b1)`); bytes the shape does
not use are ignored. -/
def Shape.instr (b1 b2 : Byte) : Shape → Instr
  | .fixed i => i
  | .byte f => f b1
  | .disp f => f (dispOf b1)
  | .word f => f (mkWord b2 b1)

/-- The mnemonic an opcode byte selects, whatever operand bytes follow. -/
def Shape.mnemonic (sh : Shape) : Mnemonic := (sh.instr 0 0).mnemonic

/-- Why a list of bytes is no instruction. No opcode is refused (R148): only a list that ends early is. -/
inductive DecodeError where
  | noOpcode
  | missingOperand (op : Byte)
deriving DecidableEq, Repr

/-- The decoder: the instruction at the head of a list of bytes, and the rest of the list. -/
def decode : List Byte → Except DecodeError (Instr × List Byte)
  | [] => .error .noOpcode
  | op :: rest =>
    match (shapeOf op).operandBytes, rest with
    | 0, rest => .ok ((shapeOf op).instr 0 0, rest)
    | 1, b1 :: rest => .ok ((shapeOf op).instr b1 0, rest)
    | 2, b1 :: b2 :: rest => .ok ((shapeOf op).instr b1 b2, rest)
    | _, _ => .error (.missingOperand op)

/-- The host's entry: the instruction decoded from `nbits` bits of `w`, bit 0 being the least significant bit of the first byte.
Every bit above `nbits` is 0; the longest instruction has three bytes. -/
def tableWordBytes (nbits w : Nat) : List Byte :=
  let v := w % 2 ^ nbits
  [BitVec.ofNat 8 v, BitVec.ofNat 8 (v / 256), BitVec.ofNat 8 (v / 65536)]

def decodeTableWord (nbits w : Nat) : Option Instr :=
  match decode (tableWordBytes nbits w) with
  | .ok (i, _) => some i
  | .error _ => none

/-! ## The encoder -/

/-- The opcode byte of each instruction (R145, the map by mnemonic). -/
def Instr.opcode : Instr → Byte
  | .brk _ => 0x00
  | .oraIzx _ => 0x01
  | .jam02 => 0x02
  | .sloIzx _ => 0x03
  | .nopStarZp04 _ => 0x04
  | .oraZp _ => 0x05
  | .aslZp _ => 0x06
  | .sloZp _ => 0x07
  | .php => 0x08
  | .oraImm _ => 0x09
  | .aslAcc => 0x0A
  | .ancImm0B _ => 0x0B
  | .nopStarAbs _ => 0x0C
  | .oraAbs _ => 0x0D
  | .aslAbs _ => 0x0E
  | .sloAbs _ => 0x0F
  | .bpl _ => 0x10
  | .oraIzy _ => 0x11
  | .jam12 => 0x12
  | .sloIzy _ => 0x13
  | .nopStarZpx14 _ => 0x14
  | .oraZpx _ => 0x15
  | .aslZpx _ => 0x16
  | .sloZpx _ => 0x17
  | .clc => 0x18
  | .oraAby _ => 0x19
  | .nopStar1A => 0x1A
  | .sloAby _ => 0x1B
  | .nopStarAbx1C _ => 0x1C
  | .oraAbx _ => 0x1D
  | .aslAbx _ => 0x1E
  | .sloAbx _ => 0x1F
  | .jsrAbs _ => 0x20
  | .andIzx _ => 0x21
  | .jam22 => 0x22
  | .rlaIzx _ => 0x23
  | .bitZp _ => 0x24
  | .andZp _ => 0x25
  | .rolZp _ => 0x26
  | .rlaZp _ => 0x27
  | .plp => 0x28
  | .andImm _ => 0x29
  | .rolAcc => 0x2A
  | .ancImm2B _ => 0x2B
  | .bitAbs _ => 0x2C
  | .andAbs _ => 0x2D
  | .rolAbs _ => 0x2E
  | .rlaAbs _ => 0x2F
  | .bmi _ => 0x30
  | .andIzy _ => 0x31
  | .jam32 => 0x32
  | .rlaIzy _ => 0x33
  | .nopStarZpx34 _ => 0x34
  | .andZpx _ => 0x35
  | .rolZpx _ => 0x36
  | .rlaZpx _ => 0x37
  | .sec => 0x38
  | .andAby _ => 0x39
  | .nopStar3A => 0x3A
  | .rlaAby _ => 0x3B
  | .nopStarAbx3C _ => 0x3C
  | .andAbx _ => 0x3D
  | .rolAbx _ => 0x3E
  | .rlaAbx _ => 0x3F
  | .rti => 0x40
  | .eorIzx _ => 0x41
  | .jam42 => 0x42
  | .sreIzx _ => 0x43
  | .nopStarZp44 _ => 0x44
  | .eorZp _ => 0x45
  | .lsrZp _ => 0x46
  | .sreZp _ => 0x47
  | .pha => 0x48
  | .eorImm _ => 0x49
  | .lsrAcc => 0x4A
  | .alrImm _ => 0x4B
  | .jmpAbs _ => 0x4C
  | .eorAbs _ => 0x4D
  | .lsrAbs _ => 0x4E
  | .sreAbs _ => 0x4F
  | .bvc _ => 0x50
  | .eorIzy _ => 0x51
  | .jam52 => 0x52
  | .sreIzy _ => 0x53
  | .nopStarZpx54 _ => 0x54
  | .eorZpx _ => 0x55
  | .lsrZpx _ => 0x56
  | .sreZpx _ => 0x57
  | .cli => 0x58
  | .eorAby _ => 0x59
  | .nopStar5A => 0x5A
  | .sreAby _ => 0x5B
  | .nopStarAbx5C _ => 0x5C
  | .eorAbx _ => 0x5D
  | .lsrAbx _ => 0x5E
  | .sreAbx _ => 0x5F
  | .rts => 0x60
  | .adcIzx _ => 0x61
  | .jam62 => 0x62
  | .rraIzx _ => 0x63
  | .nopStarZp64 _ => 0x64
  | .adcZp _ => 0x65
  | .rorZp _ => 0x66
  | .rraZp _ => 0x67
  | .pla => 0x68
  | .adcImm _ => 0x69
  | .rorAcc => 0x6A
  | .arrImm _ => 0x6B
  | .jmpInd _ => 0x6C
  | .adcAbs _ => 0x6D
  | .rorAbs _ => 0x6E
  | .rraAbs _ => 0x6F
  | .bvs _ => 0x70
  | .adcIzy _ => 0x71
  | .jam72 => 0x72
  | .rraIzy _ => 0x73
  | .nopStarZpx74 _ => 0x74
  | .adcZpx _ => 0x75
  | .rorZpx _ => 0x76
  | .rraZpx _ => 0x77
  | .sei => 0x78
  | .adcAby _ => 0x79
  | .nopStar7A => 0x7A
  | .rraAby _ => 0x7B
  | .nopStarAbx7C _ => 0x7C
  | .adcAbx _ => 0x7D
  | .rorAbx _ => 0x7E
  | .rraAbx _ => 0x7F
  | .nopStarImm80 _ => 0x80
  | .staIzx _ => 0x81
  | .nopStarImm82 _ => 0x82
  | .saxIzx _ => 0x83
  | .styZp _ => 0x84
  | .staZp _ => 0x85
  | .stxZp _ => 0x86
  | .saxZp _ => 0x87
  | .dey => 0x88
  | .nopStarImm89 _ => 0x89
  | .txa => 0x8A
  | .aneImm _ => 0x8B
  | .styAbs _ => 0x8C
  | .staAbs _ => 0x8D
  | .stxAbs _ => 0x8E
  | .saxAbs _ => 0x8F
  | .bcc _ => 0x90
  | .staIzy _ => 0x91
  | .jam92 => 0x92
  | .shaIzy _ => 0x93
  | .styZpx _ => 0x94
  | .staZpx _ => 0x95
  | .stxZpy _ => 0x96
  | .saxZpy _ => 0x97
  | .tya => 0x98
  | .staAby _ => 0x99
  | .txs => 0x9A
  | .tasAby _ => 0x9B
  | .shyAbx _ => 0x9C
  | .staAbx _ => 0x9D
  | .shxAby _ => 0x9E
  | .shaAby _ => 0x9F
  | .ldyImm _ => 0xA0
  | .ldaIzx _ => 0xA1
  | .ldxImm _ => 0xA2
  | .laxIzx _ => 0xA3
  | .ldyZp _ => 0xA4
  | .ldaZp _ => 0xA5
  | .ldxZp _ => 0xA6
  | .laxZp _ => 0xA7
  | .tay => 0xA8
  | .ldaImm _ => 0xA9
  | .tax => 0xAA
  | .lxaImm _ => 0xAB
  | .ldyAbs _ => 0xAC
  | .ldaAbs _ => 0xAD
  | .ldxAbs _ => 0xAE
  | .laxAbs _ => 0xAF
  | .bcs _ => 0xB0
  | .ldaIzy _ => 0xB1
  | .jamB2 => 0xB2
  | .laxIzy _ => 0xB3
  | .ldyZpx _ => 0xB4
  | .ldaZpx _ => 0xB5
  | .ldxZpy _ => 0xB6
  | .laxZpy _ => 0xB7
  | .clv => 0xB8
  | .ldaAby _ => 0xB9
  | .tsx => 0xBA
  | .lasAby _ => 0xBB
  | .ldyAbx _ => 0xBC
  | .ldaAbx _ => 0xBD
  | .ldxAby _ => 0xBE
  | .laxAby _ => 0xBF
  | .cpyImm _ => 0xC0
  | .cmpIzx _ => 0xC1
  | .nopStarImmC2 _ => 0xC2
  | .dcpIzx _ => 0xC3
  | .cpyZp _ => 0xC4
  | .cmpZp _ => 0xC5
  | .decZp _ => 0xC6
  | .dcpZp _ => 0xC7
  | .iny => 0xC8
  | .cmpImm _ => 0xC9
  | .dex => 0xCA
  | .sbxImm _ => 0xCB
  | .cpyAbs _ => 0xCC
  | .cmpAbs _ => 0xCD
  | .decAbs _ => 0xCE
  | .dcpAbs _ => 0xCF
  | .bne _ => 0xD0
  | .cmpIzy _ => 0xD1
  | .jamD2 => 0xD2
  | .dcpIzy _ => 0xD3
  | .nopStarZpxD4 _ => 0xD4
  | .cmpZpx _ => 0xD5
  | .decZpx _ => 0xD6
  | .dcpZpx _ => 0xD7
  | .cld => 0xD8
  | .cmpAby _ => 0xD9
  | .nopStarDA => 0xDA
  | .dcpAby _ => 0xDB
  | .nopStarAbxDC _ => 0xDC
  | .cmpAbx _ => 0xDD
  | .decAbx _ => 0xDE
  | .dcpAbx _ => 0xDF
  | .cpxImm _ => 0xE0
  | .sbcIzx _ => 0xE1
  | .nopStarImmE2 _ => 0xE2
  | .isbIzx _ => 0xE3
  | .cpxZp _ => 0xE4
  | .sbcZp _ => 0xE5
  | .incZp _ => 0xE6
  | .isbZp _ => 0xE7
  | .inx => 0xE8
  | .sbcImm _ => 0xE9
  | .nop => 0xEA
  | .usbcImm _ => 0xEB
  | .cpxAbs _ => 0xEC
  | .sbcAbs _ => 0xED
  | .incAbs _ => 0xEE
  | .isbAbs _ => 0xEF
  | .beq _ => 0xF0
  | .sbcIzy _ => 0xF1
  | .jamF2 => 0xF2
  | .isbIzy _ => 0xF3
  | .nopStarZpxF4 _ => 0xF4
  | .sbcZpx _ => 0xF5
  | .incZpx _ => 0xF6
  | .isbZpx _ => 0xF7
  | .sed => 0xF8
  | .sbcAby _ => 0xF9
  | .nopStarFA => 0xFA
  | .isbAby _ => 0xFB
  | .nopStarAbxFC _ => 0xFC
  | .sbcAbx _ => 0xFD
  | .incAbx _ => 0xFE
  | .isbAbx _ => 0xFF

/-- The operand bytes of an addressing mode, in address order (R140, R144, R91). -/
def Operand.bytes : Operand → List Byte
  | .imp | .acc => []
  | .pad v | .src (.imm v) => [v]
  | .rel d => [dispByte d]
  | .src (.mem (.zp z)) | .src (.mem (.zpx z)) | .src (.mem (.zpy z)) => [z]
  | .src (.mem (.izx z)) | .src (.mem (.izy z)) => [z]
  | .src (.mem (.abs a)) | .src (.mem (.abx a)) | .src (.mem (.aby a)) => [loByte a, hiByte a]
  | .ind a => [loByte a, hiByte a]

/-- The bytes of an instruction, in address order starting at its opcode (R140). -/
def encode (i : Instr) : List Byte := i.opcode :: i.operand.bytes

end Sys2Proof
end

