-- ==== Sys2Proof/Machine/State.lean ====
section
/-! DEFINITION. The state of the machine (spec 10_state), the reasons a step can stop (60_exceptions R410), and the state at
reset. Plain data throughout. -/

namespace Sys2Proof.Machine

/-- The flat array `Mem[0..0xFFFF]` (R42) as cells at strictly rising addresses; an address without a cell reads as
`unlistedByte` (Machine/Memory.lean), and no cell holds that byte. -/
abbrev Memory := List Host.Cell

/-- The installed mapper (R43). `none` is the state before a successful load. -/
inductive MapperKind where
  | none
  | noMapper
  | mmc1
deriving DecidableEq, Repr

/-- The four MMC1 registers (R45): 0 control, 1 CHR-bank-0, 2 CHR-bank-1, 3 PRG-bank. -/
inductive MapperReg where
  | control
  | chrBank0
  | chrBank1
  | prgBank
deriving DecidableEq, Repr

/-- The state of one MMC1 register (R45): serial accumulator, write counter, committed value, commit flag. -/
structure Mmc1Reg where
  shift     : BitVec 5
  count     : Nat
  value     : BitVec 5
  committed : Bool
deriving DecidableEq, Repr

/-- The four independent MMC1 registers (R45, R101). -/
structure Mmc1 where
  control  : Mmc1Reg
  chrBank0 : Mmc1Reg
  chrBank1 : Mmc1Reg
  prgBank  : Mmc1Reg
deriving DecidableEq, Repr

/-- The cartridge image and its header fields (R44, R440, R441). Empty before a load. -/
structure Cartridge where
  prg      : List Byte
  chr      : List Byte
  prgBanks : Nat
  chrBanks : Nat
  mapperId : Byte
  region   : Bool
deriving DecidableEq, Repr

/-- What the core sees of the video unit (R47, R60, R61): the blank flag and the calls made so far, newest first. `draws` is the
model's own counter, which the free values of the unit are applied to (log entry 5). -/
structure Video where
  blank : Bool
  calls : List VideoCall
  draws : Nat
deriving DecidableEq, Repr

/-- The machine. `params` are the parameters of R5, fixed for a machine: no step changes them (log entry 1). `returns` are the
results of the `exec` calls made so far, newest first (R390, R434; log entry 7). `frameBuffer` is the argument of the next `exec`
call, which the host supplies and no step changes (R390; log entry 17). -/
@[ext]
structure State where
  a       : Byte
  x       : Byte
  y       : Byte
  sp      : Byte
  pc      : Word
  sr      : Byte
  mem     : Memory
  mapper  : MapperKind
  mmc1    : Mmc1
  cart    : Cartridge
  icount  : Nat
  video   : Video
  returns : List Bool
  frameBuffer : FrameBuffer
  params  : Params
deriving DecidableEq, Repr

/-- The faults of R410. `left` is the state when the faulting access was attempted (R398): the earlier writes of the step are
kept, and no state after it is final. -/
inductive Fault where
  /-- Raised by an instruction fetch, opcode or operand byte, at 0x2000-0x2007 (R88). The spec's own fault: safe. -/
  | fetchFromMMIO (addr : Word) (left : State)
  /-- Raised by a write to 0x8000-0xFFFF that commits an MMC1 bank which is not in the image (R105-R107). The spec's own fault:
  safe. -/
  | mapperBankOutOfRange (reg : MapperReg) (bank : Nat) (left : State)
deriving DecidableEq, Repr

/-- The refusals of R410 and R412, and the host's `notModelled`. `left` is the core state of a run that ends at the refusal (R434): the
state when the call was refused, what the step did before it (the `get_blank` call, an NMI entry) kept, as R398 has it for a fault
(log entry 18). -/
inductive Refusal where
  /-- Raised by an arm of `exec` without a meaning. No arm is without one: safe. -/
  | notModelled (mnemonic : String)
  /-- Raised at decode by one of the 24 opcodes of R361-R371 when `P_UNLISTED = Refuse` (R372). Safe. -/
  | unlisted (mnemonic : Mnemonic) (left : State)
  /-- Raised at decode by BRK when `P_BRK = Refuse` (R324). Safe. -/
  | brk (left : State)
  /-- Raised by a step before a successful load (R412). Safe. -/
  | notLoaded (left : State)
  /-- Raised by a second load (R440). Safe. -/
  | alreadyLoaded (left : State)
deriving DecidableEq, Repr

/-! ## Updates of one field -/

def State.setA (s : State) (v : Byte) : State := { s with a := v }
def State.setX (s : State) (v : Byte) : State := { s with x := v }
def State.setY (s : State) (v : Byte) : State := { s with y := v }
def State.setSp (s : State) (v : Byte) : State := { s with sp := v }
def State.setPc (s : State) (v : Word) : State := { s with pc := v }
def State.setSr (s : State) (v : Byte) : State := { s with sr := v }
def State.setMem (s : State) (v : Memory) : State := { s with mem := v }
def State.setMmc1 (s : State) (v : Mmc1) : State := { s with mmc1 := v }
def State.setIcount (s : State) (v : Nat) : State := { s with icount := v }
def State.setVideo (s : State) (v : Video) : State := { s with video := v }
def State.setReturns (s : State) (v : List Bool) : State := { s with returns := v }

/-! ## Reset -/

/-- An MMC1 register after the load, but for its value (R50). -/
def Mmc1Reg.initial (value : BitVec 5) : Mmc1Reg :=
  { shift := 0, count := 0, value := value, committed := false }

/-- The MMC1 state after the load (R50): control 0x0C, everything else 0. -/
def Mmc1.initial : Mmc1 :=
  { control := .initial 0x0C, chrBank0 := .initial 0, chrBank1 := .initial 0, prgBank := .initial 0 }

/-- No cartridge. -/
def Cartridge.empty : Cartridge :=
  { prg := [], chr := [], prgBanks := 0, chrBanks := 0, mapperId := 0, region := false }

/-- The machine before a cartridge is loaded (R412: `mapper = None`, PC unset). The MMC1 state and `icount` are those of R50; the
parameters are at their defaults (R5). A, X, Y, SP, SR, PC, the blank flag, the frame buffer: DESIGN CHOICE, the spec gives none
(log entries 3, 6, 17).
The cartridge load, which the spec calls the only reset, takes this state to that of R50 (Machine/Load.lean, log entry 4). -/
def State.reset : State where
  a       := 0
  x       := 0
  y       := 0
  sp      := 0
  pc      := 0
  sr      := 0
  mem     := []
  mapper  := .none
  mmc1    := .initial
  cart    := .empty
  icount  := 0
  video   := { blank := false, calls := [], draws := 0 }
  returns := []
  frameBuffer := 0
  params  := {}

end Sys2Proof.Machine
end

