-- ==== Sys2Proof/Machine/Flags.lean ====
section
/-! DEFINITION. The status register's flags (spec 10_state R35-R38) and every flag computation (41_alu R200-R203, 42_shift_incdec
R230, R231). -/

namespace Sys2Proof.Machine

/-- The named bits of SR (R35). Bit 5 has no name. -/
inductive Flag where
  | n
  | v
  | b
  | d
  | i
  | z
  | c
deriving DecidableEq, Repr

/-- The place of each flag in SR (R35). -/
def Flag.bit : Flag → Nat
  | .n => 7
  | .v => 6
  | .b => 4
  | .d => 3
  | .i => 2
  | .z => 1
  | .c => 0

/-- A flag as a byte with that one bit set. -/
def Flag.mask (f : Flag) : Byte := 1#8 <<< f.bit

/-- Bit 5 of SR, observably 1 (R36). -/
def unusedMask : Byte := 0x20

/-- A flag of an SR value. -/
def srFlag (sr : Byte) (f : Flag) : Bool := sr.getLsbD f.bit

/-- An SR value with one flag written. -/
def srWith (sr : Byte) (f : Flag) (v : Bool) : Byte :=
  if v then sr ||| f.mask else sr &&& ~~~f.mask

/-- `SR.f` (R8). -/
def State.flag (s : State) (f : Flag) : Bool := srFlag s.sr f

/-- `SR.f <- v` (R8). -/
def State.setFlag (s : State) (f : Flag) (v : Bool) : State := s.setSr (srWith s.sr f v)

/-- R200: `setNZ(v)`. -/
def setNZ (v : Byte) (s : State) : State := (s.setFlag .n v.msb).setFlag .z (v == 0)

/-- The carry as a number. -/
def carry (s : State) : Nat := (s.flag .c).toNat

/-- R201: `ADD(a, m)`, the sum and the state with C and V written. Binary whatever D holds (R216). -/
def addBytes (a m : Byte) (s : State) : Byte × State :=
  let sum := a.toNat + m.toNat + carry s
  let r := BitVec.ofNat 8 sum
  (r, (s.setFlag .c (decide (255 < sum))).setFlag .v (a.msb == m.msb && r.msb != a.msb))

/-- R202: `SUBTRACT(a, m)`, the difference and the state with C (no borrow) and V written. Binary whatever D holds (R216). -/
def subBytes (a m : Byte) (s : State) : Byte × State :=
  let diff : Int := a.toNat - m.toNat - (1 - carry s)
  let r := BitVec.ofInt 8 diff
  (r, (s.setFlag .c (decide (0 ≤ diff))).setFlag .v (a.msb != m.msb && r.msb != a.msb))

/-- R203: `COMPARE(r, m)`. -/
def compareBytes (r m : Byte) (s : State) : State :=
  ((s.setFlag .z (r == m)).setFlag .c (decide (m.toNat ≤ r.toNat))).setFlag .n (r - m).msb

/-- R230: `SHIFT_LEFT(m, rotate)`. -/
def shiftLeft (rotate : Bool) (m : Byte) (s : State) : Byte × State :=
  let low : Byte := if rotate && s.flag .c then 1 else 0
  ((m <<< 1) ||| low, s.setFlag .c m.msb)

/-- R231: `SHIFT_RIGHT(m, rotate)`. -/
def shiftRight (rotate : Bool) (m : Byte) (s : State) : Byte × State :=
  let high : Byte := if rotate && s.flag .c then 0x80 else 0
  ((m >>> 1) ||| high, s.setFlag .c (m.getLsbD 0))

/-- R213: the flags of BIT, Z from `A & m`, N and V from the operand. -/
def bitTest (a m : Byte) (s : State) : State :=
  ((s.setFlag .z (a &&& m == 0)).setFlag .n m.msb).setFlag .v (m.getLsbD 6)

/-- The status byte BRK and PHP push (R324, R292): B and bit 5 set in the copy. -/
def statusForBrk (sr : Byte) : Byte := sr ||| 0x30

/-- The status byte the NMI entry pushes (R392): B clear, bit 5 set in the copy. -/
def statusForNmi (sr : Byte) : Byte := (sr &&& ~~~0x10) ||| 0x20

/-- What PLP and RTI load from a pulled byte (R293, R323): B cleared, bit 5 set. -/
def statusFromStack (v : Byte) : Byte := (v &&& ~~~0x10) ||| 0x20

/-- R36: bit 5 of SR is forced to 1 after every instruction. -/
def forceUnused (s : State) : State := s.setSr (s.sr ||| unusedMask)

end Sys2Proof.Machine
end

