-- ==== Sys2Proof/Machine/Memory.lean ====
section
/-! DEFINITION. The flat array as data (spec 10_state R42, 20_memory R80): reading a byte, writing bytes, the canonical form. -/

namespace Sys2Proof.Machine

/-- What an address without a cell reads as. DESIGN CHOICE (log entry 2): the launch contents of RAM are unspecified (R50, D19). -/
def unlistedByte : Byte := 0

/-- The byte of the flat array at an address. -/
def Memory.byteAt : Memory → Nat → Byte
  | [], _ => unlistedByte
  | (k, v) :: rest, a => if k = a then v else Memory.byteAt rest a

/-- The cells of consecutive bytes from an address on, in canonical form. -/
def cellsFrom : Nat → List Byte → Memory
  | _, [] => []
  | a, v :: vs => if v = unlistedByte then cellsFrom (a + 1) vs else (a, v) :: cellsFrom (a + 1) vs

/-- Consecutive bytes written from an address on; every other address is left alone. -/
def Memory.putBlock (m : Memory) (base : Nat) (bytes : List Byte) : Memory :=
  m.filter (fun c => decide (c.1 < base)) ++ cellsFrom base bytes ++
    m.filter (fun c => decide (base + bytes.length ≤ c.1))

/-- One byte written. -/
def Memory.put (m : Memory) (a : Nat) (v : Byte) : Memory := m.putBlock a [v]

/-- `n` consecutive bytes read from an address on. -/
def Memory.block (m : Memory) (base n : Nat) : List Byte :=
  (List.range n).map fun k => m.byteAt (base + k)

/-- The canonical form: addresses of the 64 KiB space, strictly rising, and no cell equal to what an unlisted address reads as. -/
abbrev Memory.wf (m : Memory) : Prop :=
  m.Pairwise (fun c d => c.1 < d.1) ∧ ∀ c ∈ m, c.1 < 65536 ∧ c.2 ≠ unlistedByte

end Sys2Proof.Machine
end

