-- ==== Sys2Proof/Machine/Video.lean ====
section
/-! DEFINITION. The calls to the video unit (spec 10_state R60, R61). Each is recorded; what the unit answers is a free value. -/

namespace Sys2Proof.Machine

/-- The eight registers of 0x2000-0x2007 in address order (R81). -/
def videoRegs : List VideoReg :=
  [.control1, .control2, .status, .spriteAddress, .spriteData, .scroll, .vramAddress, .vramData]

/-- The video-unit register at an address, if it lies in the window 0x2000-0x2007 (R81). -/
def videoRegAt (a : Word) : Option VideoReg :=
  if 0x2000 ≤ a.toNat then videoRegs[a.toNat - 0x2000]? else none

/-- A call that leaves the blank flag alone, recorded (R61 (c)). -/
def videoCall (c : VideoCall) (s : State) : State :=
  s.setVideo { s.video with calls := c :: s.video.calls }

/-- A register access, recorded: the unit may change its blank flag (R61 (a), (b)), to a free value (log entry 5). -/
def videoAccess (c : VideoCall) (s : State) : State :=
  let calls := c :: s.video.calls
  s.setVideo
    { blank := Config.videoBlankAfter s.video.draws calls, calls := calls, draws := s.video.draws + 1 }

/-- `VU.read(r)` (R60): the byte is a draw (R61 (a)). -/
def videoRead (r : VideoReg) (s : State) : Byte × State :=
  (Config.videoReadByte s.video.draws (.read r :: s.video.calls), videoAccess (.read r) s)

/-- `VU.write(r, v)` (R60). -/
def videoWrite (r : VideoReg) (v : Byte) (s : State) : State := videoAccess (.write r v) s

/-- `VU.get_blank()` (R60): the flag as last set (R61 (b)). -/
def videoGetBlank (s : State) : Bool × State := (s.video.blank, videoCall .getBlank s)

/-- `VU.set_blank(f)` (R60, R61 (b)). -/
def videoSetBlank (f : Bool) (s : State) : State :=
  s.setVideo { s.video with blank := f, calls := .setBlank f :: s.video.calls }

end Sys2Proof.Machine
end

