-- ==== Sys2Proof/Machine/Mapper.lean ====
section
/-! DEFINITION. The cartridge mapper (spec 20_memory R100-R111): the write hook, the MMC1 serial protocol, bank copies. -/

namespace Sys2Proof.Machine

/-- An outcome that carries a value when the machine goes on. -/
abbrev Outcome (α : Type) := Host.Outcome α Fault Refusal

/-- The outcome of an instruction or of a part of it. -/
abbrev Result := Outcome State

/-- Sequencing (R9, R10): a fault or a refusal ends the step there. -/
def andThen {α β : Type} (r : Outcome α) (k : α → Outcome β) : Outcome β :=
  match r with
  | .next v => k v
  | .fault f => .fault f
  | .refused f => .refused f

/-! ## Registers -/

/-- One of the four registers. -/
def Mmc1.reg (m : Mmc1) : MapperReg → Mmc1Reg
  | .control => m.control
  | .chrBank0 => m.chrBank0
  | .chrBank1 => m.chrBank1
  | .prgBank => m.prgBank

/-- One register written; the three others are unchanged (R101). -/
def Mmc1.setReg (m : Mmc1) (r : MapperReg) (v : Mmc1Reg) : Mmc1 :=
  match r with
  | .control => { m with control := v }
  | .chrBank0 => { m with chrBank0 := v }
  | .chrBank1 => { m with chrBank1 := v }
  | .prgBank => { m with prgBank := v }

/-- R101: the register an address of the ROM window selects, by `address & 0xE000`. -/
def mapperRegAt (a : Word) : MapperReg :=
  if a.toNat < 0xA000 then .control
  else if a.toNat < 0xC000 then .chrBank0
  else if a.toNat < 0xE000 then .chrBank1
  else .prgBank

/-- R104: the program-bank mode, bits 3:2 of the control register. -/
def prgMode (m : Mmc1) : BitVec 2 := m.control.value.extractLsb' 2 2

/-- R104: the CHR granularity, bit 4 of the control register: true for two independent 4KB units. -/
def chrMode (m : Mmc1) : Bool := m.control.value.getLsbD 4

/-! ## Bank copies -/

/-- The bytes of PRG bank `b` (R108: bank offset `b * 16384`). -/
def prgBankBytes (c : Cartridge) (b : Nat) : List Byte := (c.prg.drop (b * 16384)).take 16384

/-- The bytes of `k` CHR units from unit `u` on (R108: unit offset `u * 4096`). -/
def chrUnitBytes (c : Cartridge) (u k : Nat) : List Byte := (c.chr.drop (u * 4096)).take (k * 4096)

/-- R107: `copy_prg(b, dst)`, the bank being in range. -/
def copyPrg (b dst : Nat) (s : State) : State := s.setMem (s.mem.putBlock dst (prgBankBytes s.cart b))

/-- R105: the banks a PRG commit maps at 0x8000 and at 0xC000. Bit 4 of the committed value is ignored. -/
def prgBanksFor (mode : BitVec 2) (value : BitVec 5) (n : Nat) : Nat × Nat :=
  match mode with
  | 2 => (0, (value &&& 0x0F).toNat)
  | 3 => ((value &&& 0x0F).toNat, n - 1)
  | _ => ((value &&& 0x0E).toNat, (value &&& 0x0E).toNat + 1)

/-- R105: PRG-bank commit. Both indices are checked before the first copy (R107). -/
def prgCommit (s : State) : Result :=
  let banks := prgBanksFor (prgMode s.mmc1) s.mmc1.prgBank.value s.cart.prgBanks
  if s.cart.prgBanks ≤ banks.1 then .fault (.mapperBankOutOfRange .prgBank banks.1 s)
  else if s.cart.prgBanks ≤ banks.2 then .fault (.mapperBankOutOfRange .prgBank banks.2 s)
  else .next (copyPrg banks.2 0xC000 (copyPrg banks.1 0x8000 s))

/-- R106: `copy_chr(u, k, off)` for register `r`: the range check and the call to the video unit. -/
def copyChr (r : MapperReg) (u k off : Nat) (s : State) : Result :=
  if s.cart.chrBanks * 2 < u + k then .fault (.mapperBankOutOfRange r u s)
  else .next (videoCall (.setPatternMemory off (chrUnitBytes s.cart u k)) s)

/-- R106: CHR-bank-0 commit: one 8KB unit, whose index has bit 0 ignored, or a 4KB unit at 0x0000. -/
def chr0Commit (s : State) : Result :=
  if s.cart.chrBanks = 0 then .next s
  else if chrMode s.mmc1 then copyChr .chrBank0 s.mmc1.chrBank0.value.toNat 1 0x0000 s
  else copyChr .chrBank0 (s.mmc1.chrBank0.value &&& 0x1E).toNat 2 0x0000 s

/-- R106: CHR-bank-1 commit: a 4KB unit at 0x1000; no effect in 8KB mode. -/
def chr1Commit (s : State) : Result :=
  if s.cart.chrBanks = 0 then .next s
  else if chrMode s.mmc1 then copyChr .chrBank1 s.mmc1.chrBank1.value.toNat 1 0x1000 s
  else .next s

/-- The side effect of a commit (R102). A control commit re-maps nothing (R104). -/
def commitEffect (r : MapperReg) (s : State) : Result :=
  match r with
  | .control => .next s
  | .chrBank0 => chr0Commit s
  | .chrBank1 => chr1Commit s
  | .prgBank => prgCommit s

/-! ## Serial writes -/

/-- The accumulator after one more serial write: shifted right, the write's bit 0 entering at bit 4 (R102). -/
def shiftIn (acc : BitVec 5) (v : Byte) : BitVec 5 :=
  let incoming : BitVec 5 := if v.getLsbD 0 then 0x10 else 0
  (acc >>> 1) ||| incoming

/-- R103: a write with bit 7 set discards the register's accumulator and clears its commit flag. -/
def mmc1Reset (r : MapperReg) (s : State) : State :=
  s.setMmc1 (s.mmc1.setReg r { s.mmc1.reg r with shift := 0, count := 0, committed := false })

/-- R102: a write with bit 7 clear shifts one bit in and, on the fifth, commits. -/
def mmc1ShiftIn (r : MapperReg) (v : Byte) (s : State) : Result :=
  let g := s.mmc1.reg r
  let acc := shiftIn g.shift v
  if g.count + 1 = 5 then
    commitEffect r (s.setMmc1 (s.mmc1.setReg r { shift := 0, count := 0, value := acc, committed := true }))
  else
    .next (s.setMmc1 (s.mmc1.setReg r { g with shift := acc, count := g.count + 1 }))

/-- R101: `MMC1.write(a, v)`. -/
def mmc1Write (a : Word) (v : Byte) (s : State) : Result :=
  if v.msb then .next (mmc1Reset (mapperRegAt a) s) else mmc1ShiftIn (mapperRegAt a) v s

/-- R100: the mapper write hook, called for every write to 0x8000-0xFFFF. -/
def mapperWrite (a : Word) (v : Byte) (s : State) : Result :=
  match s.mapper with
  | .none => .next s
  | .noMapper => .next s
  | .mmc1 => mmc1Write a v s

end Sys2Proof.Machine
end

