-- ==== Sys2Proof/Machine/Ops.lean ====
section
/-! DEFINITION. The named operations: the bus (spec 20_memory R80-R90), the stack, the interrupt entry and return (60_exceptions
R392-R395), and the instruction step around an operation (40_addressing R170). -/

namespace Sys2Proof.Machine

/-! ## The bus -/

/-- R81: `read(a)`. -/
def busRead (a : Word) (s : State) : Byte × State :=
  match videoRegAt a with
  | some r => videoRead r s
  | none => (s.mem.byteAt a.toNat, s)

/-- R83: sprite DMA from page `v`, read straight from the flat array. Nothing is stored at 0x4014. -/
def spriteDma (v : Byte) (s : State) : State :=
  videoCall (.dmaWrite (s.mem.block (v.toNat * 256) 256)) s

/-- R82-R85: `write(a, v)`. -/
def busWrite (a : Word) (v : Byte) (s : State) : Result :=
  match videoRegAt a with
  | some r => .next (videoWrite r v s)
  | none =>
    if a = 0x4014 then .next (spriteDma v s)
    else if a.msb then mapperWrite a v s
    else .next (s.setMem (s.mem.put a.toNat v))

/-- The high-byte address of a 16-bit read (R87): the next one, within the same page. -/
def nextInPage (a : Word) : Word := if loByte a = 0xFF then a &&& 0xFF00 else a + 1

/-- R87: `Read16(a)`, low byte first, both through the bus. -/
def read16 (a : Word) (s : State) : Word × State :=
  let low := busRead a s
  let high := busRead (nextInPage a) low.2
  (mkWord high.1 low.1, high.2)

/-! ## The stack -/

/-- The address SP points at (R33): page 0x01. -/
def stackAddr (sp : Byte) : Word := mkWord 0x01 sp

/-- R89: `Push(v)`. The stack page is RAM (R86), so the bus write of R89 is a write of the flat array
(`busWrite_stack`, Laws/Bus.lean). -/
def push (v : Byte) (s : State) : State :=
  (s.setMem (s.mem.put (stackAddr s.sp).toNat v)).setSp (s.sp - 1)

/-- R90: `Pull()`. -/
def pull (s : State) : Byte × State :=
  let t := s.setSp (s.sp + 1)
  busRead (stackAddr t.sp) t

/-- A 16-bit quantity pushed high byte first (R91). -/
def pushWord (w : Word) (s : State) : State := push (loByte w) (push (hiByte w) s)

/-- A 16-bit quantity pulled low byte first (R322, R323). -/
def pullWord (s : State) : Word × State :=
  let low := pull s
  let high := pull low.2
  (mkWord high.1 low.1, high.2)

/-! ## Taking an interrupt and returning from one -/

/-- The NMI and BRK vectors (R86, R94). -/
def nmiVector : Word := 0xFFFA
def resetVector : Word := 0xFFFC
def brkVector : Word := 0xFFFE

/-- The three bytes an entry pushes: return address high, low, status (R392, R324). -/
def pushFrame (ret : Word) (status : Byte) (s : State) : State := push status (pushWord ret s)

/-- Taking an exception (R392, R324, R395): the frame is pushed, I is set, PC comes from the vector. -/
def enterInterrupt (ret : Word) (status : Byte) (vector : Word) (s : State) : State :=
  let target := read16 vector ((pushFrame ret status s).setFlag .i true)
  target.2.setPc target.1

/-- R392: the NMI entry. It pushes the PC of the next instruction and resets the instruction counter. -/
def enterNmi (s : State) : State :=
  (enterInterrupt s.pc (statusForNmi s.sr) nmiVector s).setIcount 0

/-- R323, R394: return from an interrupt: status, then PC low and high, no +1. -/
def returnFromInterrupt (s : State) : State :=
  let status := pull s
  let target := pullWord (status.2.setSr (statusFromStack status.1))
  target.2.setPc target.1

/-! ## One instruction -/

/-- The refusal decided at decode, from the opcode and the parameters alone (R170), before any state change of the instruction: BRK
under `P_BRK = Refuse` (R324), the unlisted opcodes under `P_UNLISTED = Refuse` (R372). -/
def refusalOf (m : Mnemonic) (s : State) : Option Refusal :=
  if m = .brk ∧ s.params.brk = .refuse then some (.brk s)
  else if m.opClass = .undocumentedUnlisted ∧ s.params.unlisted = .refuse then some (.unlisted m s)
  else none

/-- The end of an instruction: the generic flag pass if the descriptor asks for it (R175), then `SR[5] <- 1` (R36). -/
def finishInstr (flagPass : Bool) (s : State) : State :=
  forceUnused (if flagPass then setNZ s.a s else s)

/-- R170 from the decode on: the refusal, the PC advance, the operation, the end. -/
def execute (f : Form) (perform : State → Result) (s : State) : Result :=
  match refusalOf f.mnemonic s with
  | some r => .refused r
  | none =>
    andThen (perform (s.setPc (s.pc + BitVec.ofNat 16 f.length))) fun t => .next (finishInstr f.flagPass t)

end Sys2Proof.Machine
end

