-- ==== Sys2Proof/Machine/Operands.lean ====
section
/-! DEFINITION. The addressing modes (spec 40_addressing R172-R184) and the read-modify-write pattern (42_shift_incdec R232). -/

namespace Sys2Proof.Machine

/-- A byte as a zero-page address: `zext_16(b)` (R144, R176). -/
def zeroPage (z : Byte) : Word := mkWord 0 z

/-- `EA(mode)`: the effective address, and the state after the pointer reads of the indirect modes (R176-R181). -/
def effectiveAddress (m : MemMode) (s : State) : Word × State :=
  match m with
  | .zp z => (zeroPage z, s)
  | .zpx z => (zeroPage (z + s.x), s)
  | .zpy z => (zeroPage (z + s.y), s)
  | .abs a => (a, s)
  | .abx a => (a + s.x.setWidth 16, s)
  | .aby a => (a + s.y.setWidth 16, s)
  | .izx z => read16 (zeroPage (z + s.x)) s
  | .izy z =>
    let p := read16 (zeroPage z) s
    (p.1 + p.2.y.setWidth 16, p.2)

/-- `Operand(mode)` (R172): the operand byte itself, or the byte at the effective address. -/
def readSource (o : Source) (s : State) : Byte × State :=
  match o with
  | .imm v => (v, s)
  | .mem m =>
    let e := effectiveAddress m s
    busRead e.1 e.2

/-- A store (R172): the effective address, then one write. The value is read from the state at the write. -/
def storeByte (m : MemMode) (value : State → Byte) (s : State) : Result :=
  let e := effectiveAddress m s
  busWrite e.1 (value e.2) e.2

/-- One read and then one write of the effective address (R232, R93); the value written is handed on. -/
def modify (m : MemMode) (f : Byte → State → Byte × State) (s : State) : Outcome (Byte × State) :=
  let e := effectiveAddress m s
  let old := busRead e.1 e.2
  let new := f old.1 old.2
  andThen (busWrite e.1 new.1 new.2) fun t => .next (new.1, t)

end Sys2Proof.Machine
end

