-- ==== Sys2Proof/Machine/Alu.lean ====
section
/-! DEFINITION. The ALU instructions (spec 41_alu): ORA, AND, EOR, ADC, SBC, CMP, CPX, CPY, BIT. For each mnemonic its operation, the
`perform` of R170; for each opcode its meaning. -/

namespace Sys2Proof.Machine

/-- R205: bitwise OR into the accumulator. N and Z come from the generic pass. -/
def performOra (o : Source) (s : State) : Result :=
  let m := readSource o s
  .next (m.2.setA (m.2.a ||| m.1))

def execOraIzx (z : Byte) (s : State) : Result := execute ⟨.ora, .src (.mem (.izx z))⟩ (performOra (.mem (.izx z))) s
def execOraZp (z : Byte) (s : State) : Result := execute ⟨.ora, .src (.mem (.zp z))⟩ (performOra (.mem (.zp z))) s
def execOraImm (v : Byte) (s : State) : Result := execute ⟨.ora, .src (.imm v)⟩ (performOra (.imm v)) s
def execOraAbs (a : Word) (s : State) : Result := execute ⟨.ora, .src (.mem (.abs a))⟩ (performOra (.mem (.abs a))) s
def execOraIzy (z : Byte) (s : State) : Result := execute ⟨.ora, .src (.mem (.izy z))⟩ (performOra (.mem (.izy z))) s
def execOraZpx (z : Byte) (s : State) : Result := execute ⟨.ora, .src (.mem (.zpx z))⟩ (performOra (.mem (.zpx z))) s
def execOraAby (a : Word) (s : State) : Result := execute ⟨.ora, .src (.mem (.aby a))⟩ (performOra (.mem (.aby a))) s
def execOraAbx (a : Word) (s : State) : Result := execute ⟨.ora, .src (.mem (.abx a))⟩ (performOra (.mem (.abx a))) s

/-- R206: bitwise AND into the accumulator. N and Z come from the generic pass. -/
def performAnd (o : Source) (s : State) : Result :=
  let m := readSource o s
  .next (m.2.setA (m.2.a &&& m.1))

def execAndIzx (z : Byte) (s : State) : Result := execute ⟨.and, .src (.mem (.izx z))⟩ (performAnd (.mem (.izx z))) s
def execAndZp (z : Byte) (s : State) : Result := execute ⟨.and, .src (.mem (.zp z))⟩ (performAnd (.mem (.zp z))) s
def execAndImm (v : Byte) (s : State) : Result := execute ⟨.and, .src (.imm v)⟩ (performAnd (.imm v)) s
def execAndAbs (a : Word) (s : State) : Result := execute ⟨.and, .src (.mem (.abs a))⟩ (performAnd (.mem (.abs a))) s
def execAndIzy (z : Byte) (s : State) : Result := execute ⟨.and, .src (.mem (.izy z))⟩ (performAnd (.mem (.izy z))) s
def execAndZpx (z : Byte) (s : State) : Result := execute ⟨.and, .src (.mem (.zpx z))⟩ (performAnd (.mem (.zpx z))) s
def execAndAby (a : Word) (s : State) : Result := execute ⟨.and, .src (.mem (.aby a))⟩ (performAnd (.mem (.aby a))) s
def execAndAbx (a : Word) (s : State) : Result := execute ⟨.and, .src (.mem (.abx a))⟩ (performAnd (.mem (.abx a))) s

/-- R207: bitwise exclusive OR into the accumulator. N and Z come from the generic pass. -/
def performEor (o : Source) (s : State) : Result :=
  let m := readSource o s
  .next (m.2.setA (m.2.a ^^^ m.1))

def execEorIzx (z : Byte) (s : State) : Result := execute ⟨.eor, .src (.mem (.izx z))⟩ (performEor (.mem (.izx z))) s
def execEorZp (z : Byte) (s : State) : Result := execute ⟨.eor, .src (.mem (.zp z))⟩ (performEor (.mem (.zp z))) s
def execEorImm (v : Byte) (s : State) : Result := execute ⟨.eor, .src (.imm v)⟩ (performEor (.imm v)) s
def execEorAbs (a : Word) (s : State) : Result := execute ⟨.eor, .src (.mem (.abs a))⟩ (performEor (.mem (.abs a))) s
def execEorIzy (z : Byte) (s : State) : Result := execute ⟨.eor, .src (.mem (.izy z))⟩ (performEor (.mem (.izy z))) s
def execEorZpx (z : Byte) (s : State) : Result := execute ⟨.eor, .src (.mem (.zpx z))⟩ (performEor (.mem (.zpx z))) s
def execEorAby (a : Word) (s : State) : Result := execute ⟨.eor, .src (.mem (.aby a))⟩ (performEor (.mem (.aby a))) s
def execEorAbx (a : Word) (s : State) : Result := execute ⟨.eor, .src (.mem (.abx a))⟩ (performEor (.mem (.abx a))) s

/-- R208: add with carry. N and Z come from the generic pass. -/
def performAdc (o : Source) (s : State) : Result :=
  let m := readSource o s
  let r := addBytes m.2.a m.1 m.2
  .next (r.2.setA r.1)

def execAdcIzx (z : Byte) (s : State) : Result := execute ⟨.adc, .src (.mem (.izx z))⟩ (performAdc (.mem (.izx z))) s
def execAdcZp (z : Byte) (s : State) : Result := execute ⟨.adc, .src (.mem (.zp z))⟩ (performAdc (.mem (.zp z))) s
def execAdcImm (v : Byte) (s : State) : Result := execute ⟨.adc, .src (.imm v)⟩ (performAdc (.imm v)) s
def execAdcAbs (a : Word) (s : State) : Result := execute ⟨.adc, .src (.mem (.abs a))⟩ (performAdc (.mem (.abs a))) s
def execAdcIzy (z : Byte) (s : State) : Result := execute ⟨.adc, .src (.mem (.izy z))⟩ (performAdc (.mem (.izy z))) s
def execAdcZpx (z : Byte) (s : State) : Result := execute ⟨.adc, .src (.mem (.zpx z))⟩ (performAdc (.mem (.zpx z))) s
def execAdcAby (a : Word) (s : State) : Result := execute ⟨.adc, .src (.mem (.aby a))⟩ (performAdc (.mem (.aby a))) s
def execAdcAbx (a : Word) (s : State) : Result := execute ⟨.adc, .src (.mem (.abx a))⟩ (performAdc (.mem (.abx a))) s

/-- R209: subtract with borrow. N and Z come from the generic pass. -/
def performSbc (o : Source) (s : State) : Result :=
  let m := readSource o s
  let r := subBytes m.2.a m.1 m.2
  .next (r.2.setA r.1)

def execSbcIzx (z : Byte) (s : State) : Result := execute ⟨.sbc, .src (.mem (.izx z))⟩ (performSbc (.mem (.izx z))) s
def execSbcZp (z : Byte) (s : State) : Result := execute ⟨.sbc, .src (.mem (.zp z))⟩ (performSbc (.mem (.zp z))) s
def execSbcImm (v : Byte) (s : State) : Result := execute ⟨.sbc, .src (.imm v)⟩ (performSbc (.imm v)) s
def execSbcAbs (a : Word) (s : State) : Result := execute ⟨.sbc, .src (.mem (.abs a))⟩ (performSbc (.mem (.abs a))) s
def execSbcIzy (z : Byte) (s : State) : Result := execute ⟨.sbc, .src (.mem (.izy z))⟩ (performSbc (.mem (.izy z))) s
def execSbcZpx (z : Byte) (s : State) : Result := execute ⟨.sbc, .src (.mem (.zpx z))⟩ (performSbc (.mem (.zpx z))) s
def execSbcAby (a : Word) (s : State) : Result := execute ⟨.sbc, .src (.mem (.aby a))⟩ (performSbc (.mem (.aby a))) s
def execSbcAbx (a : Word) (s : State) : Result := execute ⟨.sbc, .src (.mem (.abx a))⟩ (performSbc (.mem (.abx a))) s

/-- R210: compare the accumulator. -/
def performCmp (o : Source) (s : State) : Result :=
  let m := readSource o s
  .next (compareBytes m.2.a m.1 m.2)

def execCmpIzx (z : Byte) (s : State) : Result := execute ⟨.cmp, .src (.mem (.izx z))⟩ (performCmp (.mem (.izx z))) s
def execCmpZp (z : Byte) (s : State) : Result := execute ⟨.cmp, .src (.mem (.zp z))⟩ (performCmp (.mem (.zp z))) s
def execCmpImm (v : Byte) (s : State) : Result := execute ⟨.cmp, .src (.imm v)⟩ (performCmp (.imm v)) s
def execCmpAbs (a : Word) (s : State) : Result := execute ⟨.cmp, .src (.mem (.abs a))⟩ (performCmp (.mem (.abs a))) s
def execCmpIzy (z : Byte) (s : State) : Result := execute ⟨.cmp, .src (.mem (.izy z))⟩ (performCmp (.mem (.izy z))) s
def execCmpZpx (z : Byte) (s : State) : Result := execute ⟨.cmp, .src (.mem (.zpx z))⟩ (performCmp (.mem (.zpx z))) s
def execCmpAby (a : Word) (s : State) : Result := execute ⟨.cmp, .src (.mem (.aby a))⟩ (performCmp (.mem (.aby a))) s
def execCmpAbx (a : Word) (s : State) : Result := execute ⟨.cmp, .src (.mem (.abx a))⟩ (performCmp (.mem (.abx a))) s

/-- R211: compare X. -/
def performCpx (o : Source) (s : State) : Result :=
  let m := readSource o s
  .next (compareBytes m.2.x m.1 m.2)

def execCpxImm (v : Byte) (s : State) : Result := execute ⟨.cpx, .src (.imm v)⟩ (performCpx (.imm v)) s
def execCpxZp (z : Byte) (s : State) : Result := execute ⟨.cpx, .src (.mem (.zp z))⟩ (performCpx (.mem (.zp z))) s
def execCpxAbs (a : Word) (s : State) : Result := execute ⟨.cpx, .src (.mem (.abs a))⟩ (performCpx (.mem (.abs a))) s

/-- R212: compare Y. -/
def performCpy (o : Source) (s : State) : Result :=
  let m := readSource o s
  .next (compareBytes m.2.y m.1 m.2)

def execCpyImm (v : Byte) (s : State) : Result := execute ⟨.cpy, .src (.imm v)⟩ (performCpy (.imm v)) s
def execCpyZp (z : Byte) (s : State) : Result := execute ⟨.cpy, .src (.mem (.zp z))⟩ (performCpy (.mem (.zp z))) s
def execCpyAbs (a : Word) (s : State) : Result := execute ⟨.cpy, .src (.mem (.abs a))⟩ (performCpy (.mem (.abs a))) s

/-- R213: test memory bits against the accumulator. -/
def performBit (o : Source) (s : State) : Result :=
  let m := readSource o s
  .next (bitTest m.2.a m.1 m.2)

def execBitZp (z : Byte) (s : State) : Result := execute ⟨.bit, .src (.mem (.zp z))⟩ (performBit (.mem (.zp z))) s
def execBitAbs (a : Word) (s : State) : Result := execute ⟨.bit, .src (.mem (.abs a))⟩ (performBit (.mem (.abs a))) s

end Sys2Proof.Machine
end

