-- ==== Sys2Proof/Machine/Control.lean ====
section
/-! DEFINITION. The control-transfer instructions (spec 45_control): JMP, JSR, RTS, RTI, BRK and the eight branches. For each mnemonic
its operation, for each opcode its meaning. `pc0` is the address of the opcode (R171). -/

namespace Sys2Proof.Machine

/-- R325: the common branch rule. Not taken, PC stays where R170 left it, at `pc0 + 2`. -/
def branch (cond : Bool) (d : Int) (pc0 : Word) (s : State) : Result :=
  .next (if cond then s.setPc (pc0 + BitVec.ofInt 16 d + 2) else s)

/-- R320: jump, absolute form. -/
def performJmpAbs (a : Word) (s : State) : Result := .next (s.setPc a)

/-- R320, R182: jump, indirect form. -/
def performJmpInd (a : Word) (s : State) : Result :=
  let target := read16 a s
  .next (target.2.setPc target.1)

def execJmpAbs (a : Word) (s : State) : Result := execute ⟨.jmp, .src (.mem (.abs a))⟩ (performJmpAbs a) s
def execJmpInd (a : Word) (s : State) : Result := execute ⟨.jmp, .ind a⟩ (performJmpInd a) s

/-- R321: jump to subroutine. The return address less one, `pc0 + 2`, is pushed high byte first. -/
def performJsr (a : Word) (pc0 : Word) (s : State) : Result := .next ((pushWord (pc0 + 2) s).setPc a)

def execJsrAbs (a : Word) (s : State) : Result := execute ⟨.jsr, .src (.mem (.abs a))⟩ (performJsr a s.pc) s

/-- R322: return from subroutine, to the pulled address plus one. -/
def performRts (s : State) : Result :=
  let ret := pullWord s
  .next (ret.2.setPc (ret.1 + 1))

def execRts (s : State) : Result := execute ⟨.rts, .imp⟩ performRts s

/-- R323: return from interrupt. -/
def performRti (s : State) : Result := .next (returnFromInterrupt s)

def execRti (s : State) : Result := execute ⟨.rti, .imp⟩ performRti s

/-- R324: software interrupt. `P_BRK = Refuse` never gets here: `execute` refuses first. -/
def performBrk (pc0 : Word) (s : State) : Result :=
  match s.params.brk with
  | .vector => .next (enterInterrupt (pc0 + 2) (statusForBrk s.sr) brkVector s)
  | .inert | .refuse => .next (pushFrame (pc0 + 2) (statusForBrk s.sr) s)

def execBrk (padding : Byte) (s : State) : Result := execute ⟨.brk, .pad padding⟩ (performBrk s.pc) s

/-- R326: branch if N = 0. -/
def performBpl (d : Int) (pc0 : Word) (s : State) : Result := branch (!s.flag .n) d pc0 s

def execBpl (d : Int) (s : State) : Result := execute ⟨.bpl, .rel d⟩ (performBpl d s.pc) s

/-- R327: branch if N = 1. -/
def performBmi (d : Int) (pc0 : Word) (s : State) : Result := branch (s.flag .n) d pc0 s

def execBmi (d : Int) (s : State) : Result := execute ⟨.bmi, .rel d⟩ (performBmi d s.pc) s

/-- R328: branch if V = 0. -/
def performBvc (d : Int) (pc0 : Word) (s : State) : Result := branch (!s.flag .v) d pc0 s

def execBvc (d : Int) (s : State) : Result := execute ⟨.bvc, .rel d⟩ (performBvc d s.pc) s

/-- R329: branch if V = 1. -/
def performBvs (d : Int) (pc0 : Word) (s : State) : Result := branch (s.flag .v) d pc0 s

def execBvs (d : Int) (s : State) : Result := execute ⟨.bvs, .rel d⟩ (performBvs d s.pc) s

/-- R330: branch if C = 0. -/
def performBcc (d : Int) (pc0 : Word) (s : State) : Result := branch (!s.flag .c) d pc0 s

def execBcc (d : Int) (s : State) : Result := execute ⟨.bcc, .rel d⟩ (performBcc d s.pc) s

/-- R331: branch if C = 1. -/
def performBcs (d : Int) (pc0 : Word) (s : State) : Result := branch (s.flag .c) d pc0 s

def execBcs (d : Int) (s : State) : Result := execute ⟨.bcs, .rel d⟩ (performBcs d s.pc) s

/-- R332: branch if Z = 0. -/
def performBne (d : Int) (pc0 : Word) (s : State) : Result := branch (!s.flag .z) d pc0 s

def execBne (d : Int) (s : State) : Result := execute ⟨.bne, .rel d⟩ (performBne d s.pc) s

/-- R333: branch if Z = 1. -/
def performBeq (d : Int) (pc0 : Word) (s : State) : Result := branch (s.flag .z) d pc0 s

def execBeq (d : Int) (s : State) : Result := execute ⟨.beq, .rel d⟩ (performBeq d s.pc) s

end Sys2Proof.Machine
end

