-- ==== Sys2Proof/Machine/ShiftIncDec.lean ====
section
/-! DEFINITION. The shift, rotate, increment and decrement instructions (spec 42_shift_incdec): ASL, LSR, ROL, ROR, INC, DEC, INX,
INY, DEX, DEY. For each mnemonic its operation, for each opcode its meaning. -/

namespace Sys2Proof.Machine

/-- R233: arithmetic shift left, memory forms. -/
def performAslMem (m : MemMode) (s : State) : Result :=
  andThen (modify m (shiftLeft false) s) fun p => .next (setNZ p.1 p.2)

/-- R233: accumulator form. N and Z come from the generic pass. -/
def performAslAcc (s : State) : Result :=
  let r := (shiftLeft false) s.a s
  .next (r.2.setA r.1)

def execAslZp (z : Byte) (s : State) : Result := execute ⟨.asl, .src (.mem (.zp z))⟩ (performAslMem (.zp z)) s
def execAslAcc (s : State) : Result := execute ⟨.asl, .acc⟩ performAslAcc s
def execAslAbs (a : Word) (s : State) : Result := execute ⟨.asl, .src (.mem (.abs a))⟩ (performAslMem (.abs a)) s
def execAslZpx (z : Byte) (s : State) : Result := execute ⟨.asl, .src (.mem (.zpx z))⟩ (performAslMem (.zpx z)) s
def execAslAbx (a : Word) (s : State) : Result := execute ⟨.asl, .src (.mem (.abx a))⟩ (performAslMem (.abx a)) s

/-- R234: logical shift right, memory forms. -/
def performLsrMem (m : MemMode) (s : State) : Result :=
  andThen (modify m (shiftRight false) s) fun p => .next (setNZ p.1 p.2)

/-- R234: accumulator form. N and Z come from the generic pass. -/
def performLsrAcc (s : State) : Result :=
  let r := (shiftRight false) s.a s
  .next (r.2.setA r.1)

def execLsrZp (z : Byte) (s : State) : Result := execute ⟨.lsr, .src (.mem (.zp z))⟩ (performLsrMem (.zp z)) s
def execLsrAcc (s : State) : Result := execute ⟨.lsr, .acc⟩ performLsrAcc s
def execLsrAbs (a : Word) (s : State) : Result := execute ⟨.lsr, .src (.mem (.abs a))⟩ (performLsrMem (.abs a)) s
def execLsrZpx (z : Byte) (s : State) : Result := execute ⟨.lsr, .src (.mem (.zpx z))⟩ (performLsrMem (.zpx z)) s
def execLsrAbx (a : Word) (s : State) : Result := execute ⟨.lsr, .src (.mem (.abx a))⟩ (performLsrMem (.abx a)) s

/-- R235: rotate left through carry, memory forms. -/
def performRolMem (m : MemMode) (s : State) : Result :=
  andThen (modify m (shiftLeft true) s) fun p => .next (setNZ p.1 p.2)

/-- R235: accumulator form. N and Z come from the generic pass. -/
def performRolAcc (s : State) : Result :=
  let r := (shiftLeft true) s.a s
  .next (r.2.setA r.1)

def execRolZp (z : Byte) (s : State) : Result := execute ⟨.rol, .src (.mem (.zp z))⟩ (performRolMem (.zp z)) s
def execRolAcc (s : State) : Result := execute ⟨.rol, .acc⟩ performRolAcc s
def execRolAbs (a : Word) (s : State) : Result := execute ⟨.rol, .src (.mem (.abs a))⟩ (performRolMem (.abs a)) s
def execRolZpx (z : Byte) (s : State) : Result := execute ⟨.rol, .src (.mem (.zpx z))⟩ (performRolMem (.zpx z)) s
def execRolAbx (a : Word) (s : State) : Result := execute ⟨.rol, .src (.mem (.abx a))⟩ (performRolMem (.abx a)) s

/-- R236: rotate right through carry, memory forms. -/
def performRorMem (m : MemMode) (s : State) : Result :=
  andThen (modify m (shiftRight true) s) fun p => .next (setNZ p.1 p.2)

/-- R236: accumulator form. N and Z come from the generic pass. -/
def performRorAcc (s : State) : Result :=
  let r := (shiftRight true) s.a s
  .next (r.2.setA r.1)

def execRorZp (z : Byte) (s : State) : Result := execute ⟨.ror, .src (.mem (.zp z))⟩ (performRorMem (.zp z)) s
def execRorAcc (s : State) : Result := execute ⟨.ror, .acc⟩ performRorAcc s
def execRorAbs (a : Word) (s : State) : Result := execute ⟨.ror, .src (.mem (.abs a))⟩ (performRorMem (.abs a)) s
def execRorZpx (z : Byte) (s : State) : Result := execute ⟨.ror, .src (.mem (.zpx z))⟩ (performRorMem (.zpx z)) s
def execRorAbx (a : Word) (s : State) : Result := execute ⟨.ror, .src (.mem (.abx a))⟩ (performRorMem (.abx a)) s

/-- R237: increment memory. C and V are not written. -/
def performInc (m : MemMode) (s : State) : Result :=
  andThen (modify m (fun v t => (v + 1, t)) s) fun p => .next (setNZ p.1 p.2)

def execIncZp (z : Byte) (s : State) : Result := execute ⟨.inc, .src (.mem (.zp z))⟩ (performInc (.zp z)) s
def execIncAbs (a : Word) (s : State) : Result := execute ⟨.inc, .src (.mem (.abs a))⟩ (performInc (.abs a)) s
def execIncZpx (z : Byte) (s : State) : Result := execute ⟨.inc, .src (.mem (.zpx z))⟩ (performInc (.zpx z)) s
def execIncAbx (a : Word) (s : State) : Result := execute ⟨.inc, .src (.mem (.abx a))⟩ (performInc (.abx a)) s

/-- R238: decrement memory. C and V are not written. -/
def performDec (m : MemMode) (s : State) : Result :=
  andThen (modify m (fun v t => (v - 1, t)) s) fun p => .next (setNZ p.1 p.2)

def execDecZp (z : Byte) (s : State) : Result := execute ⟨.dec, .src (.mem (.zp z))⟩ (performDec (.zp z)) s
def execDecAbs (a : Word) (s : State) : Result := execute ⟨.dec, .src (.mem (.abs a))⟩ (performDec (.abs a)) s
def execDecZpx (z : Byte) (s : State) : Result := execute ⟨.dec, .src (.mem (.zpx z))⟩ (performDec (.zpx z)) s
def execDecAbx (a : Word) (s : State) : Result := execute ⟨.dec, .src (.mem (.abx a))⟩ (performDec (.abx a)) s

/-- R239: increment X. -/
def performInx (s : State) : Result := .next (setNZ (s.x + 1) (s.setX (s.x + 1)))

def execInx (s : State) : Result := execute ⟨.inx, .imp⟩ performInx s

/-- R240: increment Y. -/
def performIny (s : State) : Result := .next (setNZ (s.y + 1) (s.setY (s.y + 1)))

def execIny (s : State) : Result := execute ⟨.iny, .imp⟩ performIny s

/-- R241: decrement X. -/
def performDex (s : State) : Result := .next (setNZ (s.x - 1) (s.setX (s.x - 1)))

def execDex (s : State) : Result := execute ⟨.dex, .imp⟩ performDex s

/-- R242: decrement Y. -/
def performDey (s : State) : Result := .next (setNZ (s.y - 1) (s.setY (s.y - 1)))

def execDey (s : State) : Result := execute ⟨.dey, .imp⟩ performDey s

end Sys2Proof.Machine
end

