-- ==== Sys2Proof/Machine/StackFlags.lean ====
section
/-! DEFINITION. The stack, flag and no-operation instructions (spec 44_stack_flags_nop): PHA, PLA, PHP, PLP, CLC, SEC, CLI, SEI,
CLV, CLD, SED, NOP. For each mnemonic its operation and its meaning. -/

namespace Sys2Proof.Machine

/-- R290: push the accumulator. -/
def performPha (s : State) : Result := .next (push s.a s)

def execPha (s : State) : Result := execute ⟨.pha, .imp⟩ performPha s

/-- R291: pull the accumulator; N and Z come from the generic pass. -/
def performPla (s : State) : Result :=
  let v := pull s
  .next (v.2.setA v.1)

def execPla (s : State) : Result := execute ⟨.pla, .imp⟩ performPla s

/-- R292: push the status register with B and bit 5 set in the copy. -/
def performPhp (s : State) : Result := .next (push (statusForBrk s.sr) s)

def execPhp (s : State) : Result := execute ⟨.php, .imp⟩ performPhp s

/-- R293: pull the status register; B is cleared and bit 5 set. -/
def performPlp (s : State) : Result :=
  let v := pull s
  .next (v.2.setSr (statusFromStack v.1))

def execPlp (s : State) : Result := execute ⟨.plp, .imp⟩ performPlp s

/-- R294: clear C; no other flag. -/
def performClc (s : State) : Result := .next (s.setFlag .c false)

def execClc (s : State) : Result := execute ⟨.clc, .imp⟩ performClc s

/-- R295: set C; no other flag. -/
def performSec (s : State) : Result := .next (s.setFlag .c true)

def execSec (s : State) : Result := execute ⟨.sec, .imp⟩ performSec s

/-- R296: clear I; no other flag. -/
def performCli (s : State) : Result := .next (s.setFlag .i false)

def execCli (s : State) : Result := execute ⟨.cli, .imp⟩ performCli s

/-- R297: set I; no other flag. -/
def performSei (s : State) : Result := .next (s.setFlag .i true)

def execSei (s : State) : Result := execute ⟨.sei, .imp⟩ performSei s

/-- R298: clear V; no other flag. -/
def performClv (s : State) : Result := .next (s.setFlag .v false)

def execClv (s : State) : Result := execute ⟨.clv, .imp⟩ performClv s

/-- R299: clear D; no other flag. -/
def performCld (s : State) : Result := .next (s.setFlag .d false)

def execCld (s : State) : Result := execute ⟨.cld, .imp⟩ performCld s

/-- R300: set D; no other flag. -/
def performSed (s : State) : Result := .next (s.setFlag .d true)

def execSed (s : State) : Result := execute ⟨.sed, .imp⟩ performSed s

/-- R301: no operation. -/
def performNop (s : State) : Result := .next (s)

def execNop (s : State) : Result := execute ⟨.nop, .imp⟩ performNop s

end Sys2Proof.Machine
end

