-- ==== Sys2Proof/Machine/Transfer.lean ====
section
/-! DEFINITION. The load, store and register-transfer instructions (spec 43_load_store_transfer): LDA, LDX, LDY, STA, STX, STY,
TAX, TAY, TXA, TYA, TSX, TXS. For each mnemonic its operation, for each opcode its meaning. -/

namespace Sys2Proof.Machine

/-- R260: load the accumulator; N and Z come from the generic pass. -/
def performLda (o : Source) (s : State) : Result :=
  let m := readSource o s
  .next (m.2.setA m.1)

def execLdaIzx (z : Byte) (s : State) : Result := execute ⟨.lda, .src (.mem (.izx z))⟩ (performLda (.mem (.izx z))) s
def execLdaZp (z : Byte) (s : State) : Result := execute ⟨.lda, .src (.mem (.zp z))⟩ (performLda (.mem (.zp z))) s
def execLdaImm (v : Byte) (s : State) : Result := execute ⟨.lda, .src (.imm v)⟩ (performLda (.imm v)) s
def execLdaAbs (a : Word) (s : State) : Result := execute ⟨.lda, .src (.mem (.abs a))⟩ (performLda (.mem (.abs a))) s
def execLdaIzy (z : Byte) (s : State) : Result := execute ⟨.lda, .src (.mem (.izy z))⟩ (performLda (.mem (.izy z))) s
def execLdaZpx (z : Byte) (s : State) : Result := execute ⟨.lda, .src (.mem (.zpx z))⟩ (performLda (.mem (.zpx z))) s
def execLdaAby (a : Word) (s : State) : Result := execute ⟨.lda, .src (.mem (.aby a))⟩ (performLda (.mem (.aby a))) s
def execLdaAbx (a : Word) (s : State) : Result := execute ⟨.lda, .src (.mem (.abx a))⟩ (performLda (.mem (.abx a))) s

/-- R261: load X. -/
def performLdx (o : Source) (s : State) : Result :=
  let m := readSource o s
  .next (setNZ m.1 (m.2.setX m.1))

def execLdxImm (v : Byte) (s : State) : Result := execute ⟨.ldx, .src (.imm v)⟩ (performLdx (.imm v)) s
def execLdxZp (z : Byte) (s : State) : Result := execute ⟨.ldx, .src (.mem (.zp z))⟩ (performLdx (.mem (.zp z))) s
def execLdxAbs (a : Word) (s : State) : Result := execute ⟨.ldx, .src (.mem (.abs a))⟩ (performLdx (.mem (.abs a))) s
def execLdxZpy (z : Byte) (s : State) : Result := execute ⟨.ldx, .src (.mem (.zpy z))⟩ (performLdx (.mem (.zpy z))) s
def execLdxAby (a : Word) (s : State) : Result := execute ⟨.ldx, .src (.mem (.aby a))⟩ (performLdx (.mem (.aby a))) s

/-- R262: load Y. -/
def performLdy (o : Source) (s : State) : Result :=
  let m := readSource o s
  .next (setNZ m.1 (m.2.setY m.1))

def execLdyImm (v : Byte) (s : State) : Result := execute ⟨.ldy, .src (.imm v)⟩ (performLdy (.imm v)) s
def execLdyZp (z : Byte) (s : State) : Result := execute ⟨.ldy, .src (.mem (.zp z))⟩ (performLdy (.mem (.zp z))) s
def execLdyAbs (a : Word) (s : State) : Result := execute ⟨.ldy, .src (.mem (.abs a))⟩ (performLdy (.mem (.abs a))) s
def execLdyZpx (z : Byte) (s : State) : Result := execute ⟨.ldy, .src (.mem (.zpx z))⟩ (performLdy (.mem (.zpx z))) s
def execLdyAbx (a : Word) (s : State) : Result := execute ⟨.ldy, .src (.mem (.abx a))⟩ (performLdy (.mem (.abx a))) s

/-- R263: store the accumulator. No flag. -/
def performSta (m : MemMode) (s : State) : Result := storeByte m State.a s

def execStaIzx (z : Byte) (s : State) : Result := execute ⟨.sta, .src (.mem (.izx z))⟩ (performSta (.izx z)) s
def execStaZp (z : Byte) (s : State) : Result := execute ⟨.sta, .src (.mem (.zp z))⟩ (performSta (.zp z)) s
def execStaAbs (a : Word) (s : State) : Result := execute ⟨.sta, .src (.mem (.abs a))⟩ (performSta (.abs a)) s
def execStaIzy (z : Byte) (s : State) : Result := execute ⟨.sta, .src (.mem (.izy z))⟩ (performSta (.izy z)) s
def execStaZpx (z : Byte) (s : State) : Result := execute ⟨.sta, .src (.mem (.zpx z))⟩ (performSta (.zpx z)) s
def execStaAby (a : Word) (s : State) : Result := execute ⟨.sta, .src (.mem (.aby a))⟩ (performSta (.aby a)) s
def execStaAbx (a : Word) (s : State) : Result := execute ⟨.sta, .src (.mem (.abx a))⟩ (performSta (.abx a)) s

/-- R264: store X. No flag. -/
def performStx (m : MemMode) (s : State) : Result := storeByte m State.x s

def execStxZp (z : Byte) (s : State) : Result := execute ⟨.stx, .src (.mem (.zp z))⟩ (performStx (.zp z)) s
def execStxAbs (a : Word) (s : State) : Result := execute ⟨.stx, .src (.mem (.abs a))⟩ (performStx (.abs a)) s
def execStxZpy (z : Byte) (s : State) : Result := execute ⟨.stx, .src (.mem (.zpy z))⟩ (performStx (.zpy z)) s

/-- R265: store Y. No flag. -/
def performSty (m : MemMode) (s : State) : Result := storeByte m State.y s

def execStyZp (z : Byte) (s : State) : Result := execute ⟨.sty, .src (.mem (.zp z))⟩ (performSty (.zp z)) s
def execStyAbs (a : Word) (s : State) : Result := execute ⟨.sty, .src (.mem (.abs a))⟩ (performSty (.abs a)) s
def execStyZpx (z : Byte) (s : State) : Result := execute ⟨.sty, .src (.mem (.zpx z))⟩ (performSty (.zpx z)) s

/-- R266: transfer A to X; N and Z by the generic pass, which reads A. -/
def performTax (s : State) : Result := .next (s.setX s.a)

def execTax (s : State) : Result := execute ⟨.tax, .imp⟩ performTax s

/-- R267: transfer A to Y; N and Z by the generic pass, which reads A. -/
def performTay (s : State) : Result := .next (s.setY s.a)

def execTay (s : State) : Result := execute ⟨.tay, .imp⟩ performTay s

/-- R268: transfer X to A; N and Z by the generic pass. -/
def performTxa (s : State) : Result := .next (s.setA s.x)

def execTxa (s : State) : Result := execute ⟨.txa, .imp⟩ performTxa s

/-- R269: transfer Y to A; N and Z by the generic pass. -/
def performTya (s : State) : Result := .next (s.setA s.y)

def execTya (s : State) : Result := execute ⟨.tya, .imp⟩ performTya s

/-- R270: transfer SP to X. -/
def performTsx (s : State) : Result := .next (setNZ s.sp (s.setX s.sp))

def execTsx (s : State) : Result := execute ⟨.tsx, .imp⟩ performTsx s

/-- R271: transfer X to SP; no flag. -/
def performTxs (s : State) : Result := .next (s.setSp s.x)

def execTxs (s : State) : Result := execute ⟨.txs, .imp⟩ performTxs s

end Sys2Proof.Machine
end

