-- ==== Sys2Proof/Machine/Undocumented.lean ====
section
/-! DEFINITION. The undocumented instructions (spec 46_undocumented): the ten the source names, the illegal NOPs, and the 24
opcodes under `P_UNLISTED` (R372). For each mnemonic its operation, for each opcode its meaning. -/

namespace Sys2Proof.Machine

/-- R350: load A and X. N and Z come from the generic pass. -/
def performLax (o : Source) (s : State) : Result :=
  let m := readSource o s
  .next ((m.2.setA m.1).setX m.1)

def execLaxIzx (z : Byte) (s : State) : Result := execute ⟨.lax, .src (.mem (.izx z))⟩ (performLax (.mem (.izx z))) s
def execLaxZp (z : Byte) (s : State) : Result := execute ⟨.lax, .src (.mem (.zp z))⟩ (performLax (.mem (.zp z))) s
def execLaxAbs (a : Word) (s : State) : Result := execute ⟨.lax, .src (.mem (.abs a))⟩ (performLax (.mem (.abs a))) s
def execLaxIzy (z : Byte) (s : State) : Result := execute ⟨.lax, .src (.mem (.izy z))⟩ (performLax (.mem (.izy z))) s
def execLaxZpy (z : Byte) (s : State) : Result := execute ⟨.lax, .src (.mem (.zpy z))⟩ (performLax (.mem (.zpy z))) s
def execLaxAby (a : Word) (s : State) : Result := execute ⟨.lax, .src (.mem (.aby a))⟩ (performLax (.mem (.aby a))) s

/-- R351: store A AND X. No flag. -/
def performSax (m : MemMode) (s : State) : Result := storeByte m (fun t => t.a &&& t.x) s

def execSaxIzx (z : Byte) (s : State) : Result := execute ⟨.sax, .src (.mem (.izx z))⟩ (performSax (.izx z)) s
def execSaxZp (z : Byte) (s : State) : Result := execute ⟨.sax, .src (.mem (.zp z))⟩ (performSax (.zp z)) s
def execSaxAbs (a : Word) (s : State) : Result := execute ⟨.sax, .src (.mem (.abs a))⟩ (performSax (.abs a)) s
def execSaxZpy (z : Byte) (s : State) : Result := execute ⟨.sax, .src (.mem (.zpy z))⟩ (performSax (.zpy z)) s

/-- R352: decrement memory, then compare with A. -/
def performDcp (m : MemMode) (s : State) : Result :=
  andThen (modify m (fun v t => (v - 1, t)) s) fun p => .next (compareBytes p.2.a p.1 p.2)

def execDcpIzx (z : Byte) (s : State) : Result := execute ⟨.dcp, .src (.mem (.izx z))⟩ (performDcp (.izx z)) s
def execDcpZp (z : Byte) (s : State) : Result := execute ⟨.dcp, .src (.mem (.zp z))⟩ (performDcp (.zp z)) s
def execDcpAbs (a : Word) (s : State) : Result := execute ⟨.dcp, .src (.mem (.abs a))⟩ (performDcp (.abs a)) s
def execDcpIzy (z : Byte) (s : State) : Result := execute ⟨.dcp, .src (.mem (.izy z))⟩ (performDcp (.izy z)) s
def execDcpZpx (z : Byte) (s : State) : Result := execute ⟨.dcp, .src (.mem (.zpx z))⟩ (performDcp (.zpx z)) s
def execDcpAby (a : Word) (s : State) : Result := execute ⟨.dcp, .src (.mem (.aby a))⟩ (performDcp (.aby a)) s
def execDcpAbx (a : Word) (s : State) : Result := execute ⟨.dcp, .src (.mem (.abx a))⟩ (performDcp (.abx a)) s

/-- R353: increment memory, then subtract from A. -/
def performIsb (m : MemMode) (s : State) : Result :=
  andThen (modify m (fun v t => (v + 1, t)) s) fun p =>
    let r := subBytes p.2.a p.1 p.2
    .next (r.2.setA r.1)

def execIsbIzx (z : Byte) (s : State) : Result := execute ⟨.isb, .src (.mem (.izx z))⟩ (performIsb (.izx z)) s
def execIsbZp (z : Byte) (s : State) : Result := execute ⟨.isb, .src (.mem (.zp z))⟩ (performIsb (.zp z)) s
def execIsbAbs (a : Word) (s : State) : Result := execute ⟨.isb, .src (.mem (.abs a))⟩ (performIsb (.abs a)) s
def execIsbIzy (z : Byte) (s : State) : Result := execute ⟨.isb, .src (.mem (.izy z))⟩ (performIsb (.izy z)) s
def execIsbZpx (z : Byte) (s : State) : Result := execute ⟨.isb, .src (.mem (.zpx z))⟩ (performIsb (.zpx z)) s
def execIsbAby (a : Word) (s : State) : Result := execute ⟨.isb, .src (.mem (.aby a))⟩ (performIsb (.aby a)) s
def execIsbAbx (a : Word) (s : State) : Result := execute ⟨.isb, .src (.mem (.abx a))⟩ (performIsb (.abx a)) s

/-- R354: shift memory left, then OR into A. -/
def performSlo (m : MemMode) (s : State) : Result :=
  andThen (modify m (shiftLeft false) s) fun p => .next (p.2.setA (p.2.a ||| p.1))

def execSloIzx (z : Byte) (s : State) : Result := execute ⟨.slo, .src (.mem (.izx z))⟩ (performSlo (.izx z)) s
def execSloZp (z : Byte) (s : State) : Result := execute ⟨.slo, .src (.mem (.zp z))⟩ (performSlo (.zp z)) s
def execSloAbs (a : Word) (s : State) : Result := execute ⟨.slo, .src (.mem (.abs a))⟩ (performSlo (.abs a)) s
def execSloIzy (z : Byte) (s : State) : Result := execute ⟨.slo, .src (.mem (.izy z))⟩ (performSlo (.izy z)) s
def execSloZpx (z : Byte) (s : State) : Result := execute ⟨.slo, .src (.mem (.zpx z))⟩ (performSlo (.zpx z)) s
def execSloAby (a : Word) (s : State) : Result := execute ⟨.slo, .src (.mem (.aby a))⟩ (performSlo (.aby a)) s
def execSloAbx (a : Word) (s : State) : Result := execute ⟨.slo, .src (.mem (.abx a))⟩ (performSlo (.abx a)) s

/-- R355: rotate memory left, then AND into A. -/
def performRla (m : MemMode) (s : State) : Result :=
  andThen (modify m (shiftLeft true) s) fun p => .next (p.2.setA (p.2.a &&& p.1))

def execRlaIzx (z : Byte) (s : State) : Result := execute ⟨.rla, .src (.mem (.izx z))⟩ (performRla (.izx z)) s
def execRlaZp (z : Byte) (s : State) : Result := execute ⟨.rla, .src (.mem (.zp z))⟩ (performRla (.zp z)) s
def execRlaAbs (a : Word) (s : State) : Result := execute ⟨.rla, .src (.mem (.abs a))⟩ (performRla (.abs a)) s
def execRlaIzy (z : Byte) (s : State) : Result := execute ⟨.rla, .src (.mem (.izy z))⟩ (performRla (.izy z)) s
def execRlaZpx (z : Byte) (s : State) : Result := execute ⟨.rla, .src (.mem (.zpx z))⟩ (performRla (.zpx z)) s
def execRlaAby (a : Word) (s : State) : Result := execute ⟨.rla, .src (.mem (.aby a))⟩ (performRla (.aby a)) s
def execRlaAbx (a : Word) (s : State) : Result := execute ⟨.rla, .src (.mem (.abx a))⟩ (performRla (.abx a)) s

/-- R356: shift memory right, then EOR into A. -/
def performSre (m : MemMode) (s : State) : Result :=
  andThen (modify m (shiftRight false) s) fun p => .next (p.2.setA (p.2.a ^^^ p.1))

def execSreIzx (z : Byte) (s : State) : Result := execute ⟨.sre, .src (.mem (.izx z))⟩ (performSre (.izx z)) s
def execSreZp (z : Byte) (s : State) : Result := execute ⟨.sre, .src (.mem (.zp z))⟩ (performSre (.zp z)) s
def execSreAbs (a : Word) (s : State) : Result := execute ⟨.sre, .src (.mem (.abs a))⟩ (performSre (.abs a)) s
def execSreIzy (z : Byte) (s : State) : Result := execute ⟨.sre, .src (.mem (.izy z))⟩ (performSre (.izy z)) s
def execSreZpx (z : Byte) (s : State) : Result := execute ⟨.sre, .src (.mem (.zpx z))⟩ (performSre (.zpx z)) s
def execSreAby (a : Word) (s : State) : Result := execute ⟨.sre, .src (.mem (.aby a))⟩ (performSre (.aby a)) s
def execSreAbx (a : Word) (s : State) : Result := execute ⟨.sre, .src (.mem (.abx a))⟩ (performSre (.abx a)) s

/-- R357: rotate memory right, then add to A with the carry the rotate produced. -/
def performRra (m : MemMode) (s : State) : Result :=
  andThen (modify m (shiftRight true) s) fun p =>
    let r := addBytes p.2.a p.1 p.2
    .next (r.2.setA r.1)

def execRraIzx (z : Byte) (s : State) : Result := execute ⟨.rra, .src (.mem (.izx z))⟩ (performRra (.izx z)) s
def execRraZp (z : Byte) (s : State) : Result := execute ⟨.rra, .src (.mem (.zp z))⟩ (performRra (.zp z)) s
def execRraAbs (a : Word) (s : State) : Result := execute ⟨.rra, .src (.mem (.abs a))⟩ (performRra (.abs a)) s
def execRraIzy (z : Byte) (s : State) : Result := execute ⟨.rra, .src (.mem (.izy z))⟩ (performRra (.izy z)) s
def execRraZpx (z : Byte) (s : State) : Result := execute ⟨.rra, .src (.mem (.zpx z))⟩ (performRra (.zpx z)) s
def execRraAby (a : Word) (s : State) : Result := execute ⟨.rra, .src (.mem (.aby a))⟩ (performRra (.aby a)) s
def execRraAbx (a : Word) (s : State) : Result := execute ⟨.rra, .src (.mem (.abx a))⟩ (performRra (.abx a)) s

/-- R358: SP takes A AND X, then `SP & trunc8(b2 + 1)` is stored at `addr16 + Y`. -/
def performTas (a : Word) (s : State) : Result :=
  storeByte (.aby a) (fun t => t.sp &&& (hiByte a + 1)) (s.setSp (s.a &&& s.x))

def execTasAby (a : Word) (s : State) : Result := execute ⟨.tas, .src (.mem (.aby a))⟩ (performTas a) s

/-- R359: exactly SBC immediate. -/
def performUsbc (v : Byte) (s : State) : Result :=
  let r := subBytes s.a v s
  .next (r.2.setA r.1)

def execUsbcImm (v : Byte) (s : State) : Result := execute ⟨.usbc, .src (.imm v)⟩ (performUsbc v) s

/-- R360: the illegal NOPs: no operation and no bus access, whatever the mode. -/
def performNopStar (s : State) : Result := .next s

def execNopStarZp04 (z : Byte) (s : State) : Result := execute ⟨.nopStar, .src (.mem (.zp z))⟩ performNopStar s
def execNopStarAbs (a : Word) (s : State) : Result := execute ⟨.nopStar, .src (.mem (.abs a))⟩ performNopStar s
def execNopStarZpx14 (z : Byte) (s : State) : Result := execute ⟨.nopStar, .src (.mem (.zpx z))⟩ performNopStar s
def execNopStar1A (s : State) : Result := execute ⟨.nopStar, .imp⟩ performNopStar s
def execNopStarAbx1C (a : Word) (s : State) : Result := execute ⟨.nopStar, .src (.mem (.abx a))⟩ performNopStar s
def execNopStarZpx34 (z : Byte) (s : State) : Result := execute ⟨.nopStar, .src (.mem (.zpx z))⟩ performNopStar s
def execNopStar3A (s : State) : Result := execute ⟨.nopStar, .imp⟩ performNopStar s
def execNopStarAbx3C (a : Word) (s : State) : Result := execute ⟨.nopStar, .src (.mem (.abx a))⟩ performNopStar s
def execNopStarZp44 (z : Byte) (s : State) : Result := execute ⟨.nopStar, .src (.mem (.zp z))⟩ performNopStar s
def execNopStarZpx54 (z : Byte) (s : State) : Result := execute ⟨.nopStar, .src (.mem (.zpx z))⟩ performNopStar s
def execNopStar5A (s : State) : Result := execute ⟨.nopStar, .imp⟩ performNopStar s
def execNopStarAbx5C (a : Word) (s : State) : Result := execute ⟨.nopStar, .src (.mem (.abx a))⟩ performNopStar s
def execNopStarZp64 (z : Byte) (s : State) : Result := execute ⟨.nopStar, .src (.mem (.zp z))⟩ performNopStar s
def execNopStarZpx74 (z : Byte) (s : State) : Result := execute ⟨.nopStar, .src (.mem (.zpx z))⟩ performNopStar s
def execNopStar7A (s : State) : Result := execute ⟨.nopStar, .imp⟩ performNopStar s
def execNopStarAbx7C (a : Word) (s : State) : Result := execute ⟨.nopStar, .src (.mem (.abx a))⟩ performNopStar s
def execNopStarImm80 (v : Byte) (s : State) : Result := execute ⟨.nopStar, .src (.imm v)⟩ performNopStar s
def execNopStarImm82 (v : Byte) (s : State) : Result := execute ⟨.nopStar, .src (.imm v)⟩ performNopStar s
def execNopStarImm89 (v : Byte) (s : State) : Result := execute ⟨.nopStar, .src (.imm v)⟩ performNopStar s
def execNopStarImmC2 (v : Byte) (s : State) : Result := execute ⟨.nopStar, .src (.imm v)⟩ performNopStar s
def execNopStarZpxD4 (z : Byte) (s : State) : Result := execute ⟨.nopStar, .src (.mem (.zpx z))⟩ performNopStar s
def execNopStarDA (s : State) : Result := execute ⟨.nopStar, .imp⟩ performNopStar s
def execNopStarAbxDC (a : Word) (s : State) : Result := execute ⟨.nopStar, .src (.mem (.abx a))⟩ performNopStar s
def execNopStarImmE2 (v : Byte) (s : State) : Result := execute ⟨.nopStar, .src (.imm v)⟩ performNopStar s
def execNopStarZpxF4 (z : Byte) (s : State) : Result := execute ⟨.nopStar, .src (.mem (.zpx z))⟩ performNopStar s
def execNopStarFA (s : State) : Result := execute ⟨.nopStar, .imp⟩ performNopStar s
def execNopStarAbxFC (a : Word) (s : State) : Result := execute ⟨.nopStar, .src (.mem (.abx a))⟩ performNopStar s

/-- R361: JAM, no effect under `P_UNLISTED = Nop`; under `Refuse`, `execute` refuses (R372). -/
def performJam (s : State) : Result := .next s

def execJam02 (s : State) : Result := execute ⟨.jam, .imp⟩ performJam s
def execJam12 (s : State) : Result := execute ⟨.jam, .imp⟩ performJam s
def execJam22 (s : State) : Result := execute ⟨.jam, .imp⟩ performJam s
def execJam32 (s : State) : Result := execute ⟨.jam, .imp⟩ performJam s
def execJam42 (s : State) : Result := execute ⟨.jam, .imp⟩ performJam s
def execJam52 (s : State) : Result := execute ⟨.jam, .imp⟩ performJam s
def execJam62 (s : State) : Result := execute ⟨.jam, .imp⟩ performJam s
def execJam72 (s : State) : Result := execute ⟨.jam, .imp⟩ performJam s
def execJam92 (s : State) : Result := execute ⟨.jam, .imp⟩ performJam s
def execJamB2 (s : State) : Result := execute ⟨.jam, .imp⟩ performJam s
def execJamD2 (s : State) : Result := execute ⟨.jam, .imp⟩ performJam s
def execJamF2 (s : State) : Result := execute ⟨.jam, .imp⟩ performJam s

/-- R362: ANC, no effect under `P_UNLISTED = Nop`; under `Refuse`, `execute` refuses (R372). -/
def performAnc (s : State) : Result := .next s

def execAncImm0B (v : Byte) (s : State) : Result := execute ⟨.anc, .src (.imm v)⟩ performAnc s
def execAncImm2B (v : Byte) (s : State) : Result := execute ⟨.anc, .src (.imm v)⟩ performAnc s

/-- R363: ALR, no effect under `P_UNLISTED = Nop`; under `Refuse`, `execute` refuses (R372). -/
def performAlr (s : State) : Result := .next s

def execAlrImm (v : Byte) (s : State) : Result := execute ⟨.alr, .src (.imm v)⟩ performAlr s

/-- R364: ARR, no effect under `P_UNLISTED = Nop`; under `Refuse`, `execute` refuses (R372). -/
def performArr (s : State) : Result := .next s

def execArrImm (v : Byte) (s : State) : Result := execute ⟨.arr, .src (.imm v)⟩ performArr s

/-- R365: ANE, no effect under `P_UNLISTED = Nop`; under `Refuse`, `execute` refuses (R372). -/
def performAne (s : State) : Result := .next s

def execAneImm (v : Byte) (s : State) : Result := execute ⟨.ane, .src (.imm v)⟩ performAne s

/-- R366: LXA, no effect under `P_UNLISTED = Nop`; under `Refuse`, `execute` refuses (R372). -/
def performLxa (s : State) : Result := .next s

def execLxaImm (v : Byte) (s : State) : Result := execute ⟨.lxa, .src (.imm v)⟩ performLxa s

/-- R367: SBX, no effect under `P_UNLISTED = Nop`; under `Refuse`, `execute` refuses (R372). -/
def performSbx (s : State) : Result := .next s

def execSbxImm (v : Byte) (s : State) : Result := execute ⟨.sbx, .src (.imm v)⟩ performSbx s

/-- R368: SHA, no effect under `P_UNLISTED = Nop`; under `Refuse`, `execute` refuses (R372). -/
def performSha (s : State) : Result := .next s

def execShaIzy (z : Byte) (s : State) : Result := execute ⟨.sha, .src (.mem (.izy z))⟩ performSha s
def execShaAby (a : Word) (s : State) : Result := execute ⟨.sha, .src (.mem (.aby a))⟩ performSha s

/-- R369: SHX, no effect under `P_UNLISTED = Nop`; under `Refuse`, `execute` refuses (R372). -/
def performShx (s : State) : Result := .next s

def execShxAby (a : Word) (s : State) : Result := execute ⟨.shx, .src (.mem (.aby a))⟩ performShx s

/-- R370: SHY, no effect under `P_UNLISTED = Nop`; under `Refuse`, `execute` refuses (R372). -/
def performShy (s : State) : Result := .next s

def execShyAbx (a : Word) (s : State) : Result := execute ⟨.shy, .src (.mem (.abx a))⟩ performShy s

/-- R371: LAS, no effect under `P_UNLISTED = Nop`; under `Refuse`, `execute` refuses (R372). -/
def performLas (s : State) : Result := .next s

def execLasAby (a : Word) (s : State) : Result := execute ⟨.las, .src (.mem (.aby a))⟩ performLas s

end Sys2Proof.Machine
end

