-- ==== Sys2Proof/Machine/Fetch.lean ====
section
/-! DEFINITION. Instruction fetch (spec 20_memory R88, 40_addressing R170) and placing an instruction where it is fetched. -/

namespace Sys2Proof.Machine

/-- R88: `Fetch(a)`, a byte of the flat array; a fetch from the video window is a fault. -/
def fetchByte (a : Word) (s : State) : Outcome Byte :=
  if (videoRegAt a).isSome then .fault (.fetchFromMMIO a s) else .next (s.mem.byteAt a.toNat)

/-- R170: the opcode, the refusal decided from it alone, then exactly the operand bytes of its length (R88). -/
def fetchInstr (s : State) : Outcome Instr :=
  andThen (fetchByte s.pc s) fun op =>
    match refusalOf (shapeOf op).mnemonic s with
    | some r => .refused r
    | none =>
      match (shapeOf op).operandBytes with
      | 0 => .next ((shapeOf op).instr 0 0)
      | 1 => andThen (fetchByte (s.pc + 1) s) fun b1 => .next ((shapeOf op).instr b1 0)
      | _ =>
        andThen (fetchByte (s.pc + 1) s) fun b1 =>
          andThen (fetchByte (s.pc + 2) s) fun b2 => .next ((shapeOf op).instr b1 b2)

/-- Bytes written one after another from an address on, wrapping at the top of memory. -/
def placeBytes (m : Memory) (a : Word) : List Byte → Memory
  | [] => m
  | v :: vs => placeBytes (m.put a.toNat v) (a + 1) vs

/-- An address from which three bytes can be fetched: the given one, or 0x0200 where it is too near the video window. -/
def fetchableFrom (a : Word) : Word :=
  if (videoRegAt a).isSome || (videoRegAt (a + 1)).isSome || (videoRegAt (a + 2)).isSome then 0x0200 else a

end Sys2Proof.Machine
end

