-- ==== Sys2Proof/Machine/Harness.lean ====
section
/-! DEFINITION. The stepping harness around an instruction (spec 60_exceptions R390-R396, R425). -/

namespace Sys2Proof.Machine

/-- R391: `gate(I)`. -/
def gateOpen (g : NmiGate) (i : Bool) : Bool :=
  match g with
  | .serviceWhenISet => i
  | .serviceWhenIClear => !i
  | .always => true

/-- R390, the start of a call: a pending vertical blank is serviced if the gate is open, and cleared regardless. -/
def serviceBlank (s : State) : State :=
  let pending := videoGetBlank s
  let t := pending.2
  if pending.1 then
    videoSetBlank false (if gateOpen t.params.nmiGate (t.flag .i) then enterNmi t else t)
  else t

/-- R390: "every N instructions", the counter being a positive multiple of N. -/
def periodElapsed (count period : Nat) : Bool := decide (count % period = 0)

/-- R390, the end of a call: the counter, the vertical-blank threshold, the render threshold, the result. -/
def endStep (s : State) : State :=
  let n := s.icount + 1
  let counted := s.setIcount n
  let signalled := if periodElapsed n s.params.vblankPeriod then videoSetBlank true counted else counted
  let ready := periodElapsed n s.params.renderPeriod
  let rendered := if ready then videoCall (.render s.frameBuffer) signalled else signalled
  rendered.setReturns (ready :: s.returns)

end Sys2Proof.Machine
end

