-- ==== Sys2Proof/Machine/Step.lean ====
section
/-! DEFINITION. One step of the machine: one call of the step interface (spec 60_exceptions R390). -/

namespace Sys2Proof.Machine

/-- R390: `exec(frameBuffer)`, the argument being `s.frameBuffer`. Before a load it is refused (R412); otherwise the pending blank,
one instruction, the counter. -/
def step (s : State) : Host.Outcome State Fault Refusal :=
  match s.mapper with
  | .none => .refused (.notLoaded s)
  | .noMapper | .mmc1 =>
    let t := serviceBlank s
    andThen (fetchInstr t) fun i => andThen (exec i t) fun u => .next (endStep u)

/-- The instruction placed where the next step fetches it. This stands for the cartridge load that brings a program in (log entry
4): a mapper is installed if there is none, and no vertical blank is pending, so that the next step runs this instruction. -/
def State.withFetchWord (s : State) (nbits w : Nat) : State :=
  let pc := fetchableFrom s.pc
  { s with
    pc := pc
    mem := placeBytes s.mem pc (tableWordBytes nbits w)
    mapper := match s.mapper with
      | .none => .noMapper
      | .noMapper => .noMapper
      | .mmc1 => .mmc1
    video := { s.video with blank := false } }

end Sys2Proof.Machine
end

