-- ==== Sys2Proof/Machine/Load.lean ====
section
/-! DEFINITION. The cartridge load, the only reset of the core (spec 70_reset_and_hazards R440-R450). The host calls it; it is not a
step. -/

namespace Sys2Proof.Machine

/-- The launch values `P_INIT_A` to `P_INIT_SR` and `P_INIT_RAM` (R5, R445), arguments of the load: any values. -/
structure Launch where
  a   : Byte
  x   : Byte
  y   : Byte
  sp  : Byte
  sr  : Byte
  ram : List Byte    -- the bytes of 0x0000-0x7FFF, from 0x0000 on
deriving DecidableEq, Repr

/-- Why a load fails (R410, R440, R446). The core stays as it was, not loaded (R412). -/
inductive LoadFailure where
  | imageTooShort
  | trainer
  | zeroPrgBanks
  | tooManyBanksForNoMapper
  | tooFewBanksForMmc1
  | unknownMapper
deriving DecidableEq, Repr

/-- The outcome of a load. -/
abbrev LoadOutcome (α : Type) := Host.Outcome α LoadFailure Refusal

/-- A byte of the header. -/
def headerByte (image : List Byte) (k : Nat) : Byte := image.getD k 0

/-- R440: the mapper identifier, high nibble of offset 7 and high nibble of offset 6. -/
def headerMapperId (image : List Byte) : Byte := (headerByte image 7 &&& (0xF0 : Byte)) ||| (headerByte image 6 >>> 4)

/-- R440: the cartridge of an image whose header has passed its checks. -/
def cartridgeOf (image : List Byte) : Cartridge :=
  let prgBanks := (headerByte image 4).toNat
  let chrBanks := (headerByte image 5).toNat
  { prg := (image.drop 16).take (prgBanks * 16384)
    chr := (image.drop (16 + prgBanks * 16384)).take (chrBanks * 8192)
    prgBanks := prgBanks
    chrBanks := chrBanks
    mapperId := headerMapperId image
    region := (headerByte image 9).getLsbD 0 }

/-- R447: `NoMapper.load`: one bank mirrored, or two banks in order. -/
def noMapperLoad (s : State) : State := copyPrg (s.cart.prgBanks - 1) 0xC000 (copyPrg 0 0x8000 s)

/-- R448: `MMC1.load`: the final two banks. -/
def mmc1Load (s : State) : State :=
  copyPrg (s.cart.prgBanks - 1) 0xC000 (copyPrg (s.cart.prgBanks - 2) 0x8000 s)

/-- R449: the first 8KB of the character ROM goes to the pattern memory; no call without character ROM. -/
def loadChr (s : State) : State :=
  if s.cart.chrBanks = 0 then s else videoCall (.setPatternMemory 0 (s.cart.chr.take 8192)) s

/-- R446: `configure`: the mapper, the initial bank mapping, the character data. -/
def configure (s : State) : LoadOutcome State :=
  if s.cart.mapperId = 0 then
    if 2 < s.cart.prgBanks then .fault .tooManyBanksForNoMapper
    else .next (loadChr { noMapperLoad s with mapper := .noMapper })
  else if s.cart.mapperId = 1 then
    if s.cart.prgBanks < 2 then .fault .tooFewBanksForMmc1
    else .next (loadChr { mmc1Load s with mapper := .mmc1 })
  else .fault .unknownMapper

/-- R445: the core state the load starts from: launch values, launch RAM, initial MMC1 state, the new cartridge. The video
unit, the parameters and the frame buffer are the host's and are kept (R442). -/
def launchState (l : Launch) (c : Cartridge) (s : State) : State where
  a       := l.a
  x       := l.x
  y       := l.y
  sp      := l.sp
  pc      := s.pc
  sr      := l.sr
  mem     := Memory.putBlock [] 0 (l.ram.take 32768)
  mapper  := .none
  mmc1    := .initial
  cart    := c
  icount  := 0
  video   := s.video
  returns := s.returns
  frameBuffer := s.frameBuffer
  params  := s.params

/-- R440, R450: `init(headerAndRom, length)`. -/
def State.load (l : Launch) (image : List Byte) (s : State) : LoadOutcome State :=
  match s.mapper with
  | .noMapper | .mmc1 => .refused (.alreadyLoaded s)
  | .none =>
    if image.length < 16 then .fault .imageTooShort
    else if (headerByte image 6).getLsbD 2 then .fault .trainer
    else if headerByte image 4 = 0 then .fault .zeroPrgBanks
    else if image.length < 16 + (headerByte image 4).toNat * 16384 + (headerByte image 5).toNat * 8192 then
      .fault .imageTooShort
    else
      match configure (launchState l (cartridgeOf image) s) with
      | .next t =>
        let target := read16 resetVector t
        .next (target.2.setPc target.1)
      | .fault f => .fault f
      | .refused r => .refused r

end Sys2Proof.Machine
end

