-- ==== Sys2Proof/Safety.lean ====
section
/-! DEFINITION. The terms claims use: what it is for an instruction to run, which writes complete, well-formed states, and what
the ROM window shows. -/

namespace Sys2Proof.Machine

/-! ## Running an instruction -/

/-- A new SR that has exactly these flags written over the old one, and bit 5 set (R36). -/
def StatusAfter (old new : Byte) (writes : List (Flag × Bool)) : Prop :=
  new.getLsbD 5 = true ∧ (∀ p ∈ writes, srFlag new p.1 = p.2) ∧
    ∀ f, f ∉ writes.map Prod.fst → srFlag new f = srFlag old f

/-- `i`, run at `s`, answers the next state that is `t` but for PC, which is `pc`, and SR, which is `t`'s with exactly these flags
written and bit 5 set. Everything not named in `t` is thereby unchanged. -/
def RunsTo (i : Instr) (s t : State) (pc : Word) (writes : List (Flag × Bool)) : Prop :=
  ∃ sr, exec i s = .next { t with sr := sr, pc := pc } ∧ StatusAfter t.sr sr writes

/-- The address of the next instruction in memory (R34). -/
def nextPc (i : Instr) (s : State) : Word := s.pc + BitVec.ofNat 16 i.length

/-- `RunsTo` the next instruction in memory. -/
def Runs (i : Instr) (s t : State) (writes : List (Flag × Bool)) : Prop :=
  RunsTo i s t (nextPc i s) writes

/-- N and Z as `setNZ(v)` writes them (R200). -/
def nzOf (v : Byte) : List (Flag × Bool) := [(.n, v.msb), (.z, v == 0)]

/-- The address a memory mode gives in a state (R176-R181). The pointers lie in the zero page, so no state changes. -/
def addressOf (m : MemMode) (s : State) : Word := (effectiveAddress m s).1

/-! ## Completing a write -/

/-- The banks a commit of `value` into `r` maps are in the image (R105, R106, R107). -/
def CommitInRange (s : State) (r : MapperReg) (value : BitVec 5) : Prop :=
  match r with
  | .control => True
  | .prgBank =>
    (prgBanksFor (prgMode s.mmc1) value s.cart.prgBanks).1 < s.cart.prgBanks ∧
      (prgBanksFor (prgMode s.mmc1) value s.cart.prgBanks).2 < s.cart.prgBanks
  | .chrBank0 =>
    s.cart.chrBanks = 0 ∨
      if chrMode s.mmc1 then value.toNat + 1 ≤ s.cart.chrBanks * 2
      else (value &&& 0x1E).toNat + 2 ≤ s.cart.chrBanks * 2
  | .chrBank1 => s.cart.chrBanks = 0 ∨ chrMode s.mmc1 = false ∨ value.toNat + 1 ≤ s.cart.chrBanks * 2

/-- A write that is the fifth serial write of an MMC1 register (R102). -/
def IsCommit (a : Word) (v : Byte) (s : State) : Prop :=
  s.mapper = .mmc1 ∧ a.msb = true ∧ v.msb = false ∧ (s.mmc1.reg (mapperRegAt a)).count = 4

/-- A bus write that does not fault: one that commits no bank outside the image. -/
def WriteCompletes (a : Word) (v : Byte) (s : State) : Prop :=
  IsCommit a v s → CommitInRange s (mapperRegAt a) (shiftIn (s.mmc1.reg (mapperRegAt a)).shift v)

/-- `i`, run at `s`, makes the bus write of `v` at `e` from the state `s'` its reads have left, and then runs to what `after` makes
of the state the write leaves. Where the write commits a bank outside the image, `i` ends in the write's own fault (R185, R107),
and the state it leaves is the write's but for PC and SR. -/
def WritesAndRuns (i : Instr) (s s' : State) (e : Word) (v : Byte) (after : State → State)
    (writes : List (Flag × Bool)) : Prop :=
  (WriteCompletes e v s' → ∃ u, busWrite e v s' = .next u ∧ Runs i s (after u) writes) ∧
  (¬WriteCompletes e v s' → ∃ r bank w left, busWrite e v s' = .fault (.mapperBankOutOfRange r bank w) ∧
    exec i s = .fault (.mapperBankOutOfRange r bank left) ∧ left = { w with pc := left.pc, sr := left.sr })

/-! ## Well-formed states -/

/-- What every step keeps: memory in canonical form, every MMC1 write counter 0..4 (R45). -/
abbrev State.Wf (s : State) : Prop :=
  s.mem.wf ∧ s.mmc1.control.count < 5 ∧ s.mmc1.chrBank0.count < 5 ∧ s.mmc1.chrBank1.count < 5 ∧
    s.mmc1.prgBank.count < 5

/-- The image has the bytes its bank counts promise (R44). -/
abbrev Cartridge.Wf (c : Cartridge) : Prop :=
  c.prg.length = c.prgBanks * 16384 ∧ c.chr.length = c.chrBanks * 8192

/-- The 16 KiB at `dst` are PRG bank `b` (R107). -/
def ShowsBank (s : State) (dst b : Nat) : Prop :=
  b < s.cart.prgBanks ∧ ∀ k, k < 16384 → s.mem.byteAt (dst + k) = s.cart.prg.getD (b * 16384 + k) unlistedByte

/-- The ROM window is two whole banks of the image (R42, R84, R107). -/
def RomShowsBanks (s : State) : Prop :=
  ∃ low high, ShowsBank s 0x8000 low ∧ ShowsBank s 0xC000 high

/-- Outside the video window, so that a fetch there does not fault (R88). -/
def Fetchable (a : Word) : Prop := ¬(0x2000 ≤ a.toNat ∧ a.toNat ≤ 0x2007)

/-- No parameter refuses an opcode (R5). -/
def NoRefusal (p : Params) : Prop := p.brk ≠ .refuse ∧ p.unlisted ≠ .refuse

end Sys2Proof.Machine
end

