-- ==== Sys2Proof/Certificates/Slice0/Obligations.lean ====
section
/-! DEFINITION. The statements for the provers. Each says which rule of spec/ it formalises, and which clause of it, if any, rests on a
decision the spec marks as its own (D<n> of 92_eei_decisions) or on a choice of the model (a log entry). -/

open Sys2Proof Sys2Proof.Machine

/-! ## Encoding -/

/-- R145, R140, R144: words written out from the opcode map, one of each family. -/
def Obligations.SampleWordsDecode : Prop :=
  decode [0x69, 0x50] = .ok (.adcImm 0x50, []) ∧
  decode [0x7E, 0x30, 0x12] = .ok (.rorAbx 0x1230, []) ∧
  decode [0xB6, 0xF0] = .ok (.ldxZpy 0xF0, []) ∧
  decode [0x28] = .ok (.plp, []) ∧
  decode [0xD0, 0xF9] = .ok (.bne (-7), []) ∧
  decode [0x6C, 0xFF, 0x12] = .ok (.jmpInd 0x12FF, []) ∧
  decode [0x9B, 0x00, 0x03] = .ok (.tasAby 0x0300, []) ∧
  decode [0xBB, 0x00, 0x03] = .ok (.lasAby 0x0300, [])

/-- R145, R140, R144: decoding what the encoder wrote gives the instruction back, every operand at every value it can have, and
leaves the rest of the bytes. -/
def Obligations.DecodeUndoesEncode : Prop :=
  ∀ (i : Instr) (rest : List Byte), i.wellFormed = true → decode (encode i ++ rest) = .ok (i, rest)

/-- R145, R140, R144: encoding what the decoder read gives the bytes back, so a word has one meaning and no bit is dropped. -/
def Obligations.EncodeUndoesDecode : Prop :=
  ∀ (bytes rest : List Byte) (i : Instr),
    decode bytes = .ok (i, rest) → i.wellFormed = true ∧ encode i ++ rest = bytes

/-- R145, R146, R150: every opcode byte decodes; the mnemonic and the length, 1 to 3, come from the opcode byte alone; exactly
`length` bytes are taken. -/
def Obligations.EveryOpcodeDecodesAtItsOwnLength : Prop :=
  ∀ op : Byte, ∃ (m : Mnemonic) (n : Nat), 1 ≤ n ∧ n ≤ 3 ∧
    ∀ (b1 b2 : Byte) (rest : List Byte), ∃ i : Instr,
      decode (op :: b1 :: b2 :: rest) = .ok (i, (op :: b1 :: b2 :: rest).drop n) ∧
      i.mnemonic = m ∧ i.length = n

/-- R141, R142, R143: in the arithmetic/logic group (`cc = 01`) bits 7:5 select the operation and `opcode & 0x1C` the mode; 0x89, where a
store-immediate would stand, is an illegal NOP. In the memory forms of the shift/increment group (`cc = 10`, bit 2 set) bits 7:5
select the operation and `opcode & 0x18` the mode; STX and LDX index by Y; 0x9E is SHX. -/
def Obligations.OpcodeGroupsFollowTheirMasks : Prop :=
  (∀ (op b1 b2 : Byte) (rest : List Byte) (i : Instr), op &&& 0x03 = 0x01 →
    decode [op, b1, b2] = .ok (i, rest) →
    (op = 0x89 → i.form = ⟨.nopStar, .src (.imm b1)⟩) ∧
    (op ≠ 0x89 →
      [Mnemonic.ora, .and, .eor, .adc, .sta, .lda, .cmp, .sbc][(op >>> 5).toNat]? = some i.mnemonic ∧
      (op &&& 0x1C = 0x00 → i.operand = .src (.mem (.izx b1)) ∧ i.length = 2) ∧
      (op &&& 0x1C = 0x04 → i.operand = .src (.mem (.zp b1)) ∧ i.length = 2) ∧
      (op &&& 0x1C = 0x08 → i.operand = .src (.imm b1) ∧ i.length = 2) ∧
      (op &&& 0x1C = 0x0C → i.operand = .src (.mem (.abs (mkWord b2 b1))) ∧ i.length = 3) ∧
      (op &&& 0x1C = 0x10 → i.operand = .src (.mem (.izy b1)) ∧ i.length = 2) ∧
      (op &&& 0x1C = 0x14 → i.operand = .src (.mem (.zpx b1)) ∧ i.length = 2) ∧
      (op &&& 0x1C = 0x18 → i.operand = .src (.mem (.aby (mkWord b2 b1))) ∧ i.length = 3) ∧
      (op &&& 0x1C = 0x1C → i.operand = .src (.mem (.abx (mkWord b2 b1))) ∧ i.length = 3))) ∧
  ∀ (op b1 b2 : Byte) (rest : List Byte) (i : Instr), op &&& 0x07 = 0x06 →
    decode [op, b1, b2] = .ok (i, rest) →
    (op = 0x9E → i.form = ⟨.shx, .src (.mem (.aby (mkWord b2 b1)))⟩) ∧
    (op ≠ 0x9E →
      [Mnemonic.asl, .rol, .lsr, .ror, .stx, .ldx, .dec, .inc][(op >>> 5).toNat]? = some i.mnemonic ∧
      (op &&& 0x18 = 0x00 → i.operand = .src (.mem (.zp b1)) ∧ i.length = 2) ∧
      (op &&& 0x18 = 0x08 → i.operand = .src (.mem (.abs (mkWord b2 b1))) ∧ i.length = 3) ∧
      (op &&& 0x18 = 0x10 →
        (op = 0x96 ∨ op = 0xB6 → i.operand = .src (.mem (.zpy b1)) ∧ i.length = 2) ∧
        (op ≠ 0x96 ∧ op ≠ 0xB6 → i.operand = .src (.mem (.zpx b1)) ∧ i.length = 2)) ∧
      (op &&& 0x18 = 0x18 →
        (op = 0xBE → i.operand = .src (.mem (.aby (mkWord b2 b1))) ∧ i.length = 3) ∧
        (op ≠ 0xBE → i.operand = .src (.mem (.abx (mkWord b2 b1))) ∧ i.length = 3)))

/-! ## The step -/

/-- R390, R170: once a mapper is installed, a step services the pending blank, runs the instruction the bytes at the program
counter decode to, and ends with the counter and its thresholds. A stop of the instruction is the stop of the step. (The
thresholds at its end are D18 and D39, the spec's own decisions.) -/
def Obligations.StepRunsTheDecodedInstruction : Prop :=
  ∀ (s : State) (i : Instr) (rest : List Byte), s.mapper ≠ .none →
    let t := serviceBlank s
    decode [t.mem.byteAt t.pc.toNat, t.mem.byteAt (t.pc + 1).toNat, t.mem.byteAt (t.pc + 2).toNat] = .ok (i, rest) →
    (∀ k, k < i.length → Fetchable (t.pc + BitVec.ofNat 16 k)) →
    step s = andThen (exec i t) fun u => .next (endStep u)

/-- R397, R412, R88, R398, R372, R324, R434: how a step stops before it executes, in order: before a successful load it is refused; then
an opcode fetch in 0x2000-0x2007 is a fault; then a refusal decided from the opcode alone, wherever the operand bytes lie; then a
fetch there of an operand byte the length asks for. A stop leaves the state at the stop: PC not advanced, an NMI entry's effects
and the calls of the step kept. (D40, D14, D30, D11, D5, the spec's own decisions; that a refusal leaves the state as a fault does
is read by inference, log entry 18.) -/
def Obligations.StopsBeforeExecutionComeInOrder : Prop :=
  ∀ s : State,
    let t := serviceBlank s
    let sh := shapeOf (t.mem.byteAt t.pc.toNat)
    (s.mapper = .none → step s = .refused (.notLoaded s)) ∧
    (s.mapper ≠ .none → ¬Fetchable t.pc → step s = .fault (.fetchFromMMIO t.pc t)) ∧
    (s.mapper ≠ .none → Fetchable t.pc →
      (sh.mnemonic = .brk → t.params.brk = .refuse → step s = .refused (.brk t)) ∧
      (sh.mnemonic.opClass = .undocumentedUnlisted → t.params.unlisted = .refuse →
        step s = .refused (.unlisted sh.mnemonic t)) ∧
      ((sh.mnemonic = .brk → t.params.brk ≠ .refuse) →
        (sh.mnemonic.opClass = .undocumentedUnlisted → t.params.unlisted ≠ .refuse) →
        (1 ≤ sh.operandBytes → ¬Fetchable (t.pc + 1) → step s = .fault (.fetchFromMMIO (t.pc + 1) t)) ∧
        (2 ≤ sh.operandBytes → Fetchable (t.pc + 1) → ¬Fetchable (t.pc + 2) →
          step s = .fault (.fetchFromMMIO (t.pc + 2) t))))

/-- R391: `gate(I)` for the three values of `P_NMI_GATE`. -/
def Obligations.GateFollowsItsParameter : Prop :=
  ∀ i : Bool, gateOpen .serviceWhenISet i = i ∧ gateOpen .serviceWhenIClear i = !i ∧ gateOpen .always i = true

/-- R392, R390, R94: with a blank pending and the gate open, the step starts with the NMI entry: PC and status on the stack, I
set, PC from 0xFFFA, the counter 0, the blank cleared; nothing else changes. That the pushed PC is the PC at the start of the
step is D41, the pushed status (B clear, bit 5 set) and the setting of I are D7, the stack page is D1, the spec's own decisions
(log entry 12); the calls are recorded, the newest first (log entry 7). -/
def Obligations.PendingBlankEntersThroughTheNmiVector : Prop :=
  ∀ s : State, s.video.blank = true → gateOpen s.params.nmiGate (s.flag .i) = true →
    ∃ sr, serviceBlank s =
        { s with
          mem := ((s.mem.put (stackAddr s.sp).toNat (hiByte s.pc)).put (stackAddr (s.sp - 1)).toNat (loByte s.pc)).put
            (stackAddr (s.sp - 2)).toNat ((s.sr &&& 0xEF) ||| 0x20)
          sp := s.sp - 3
          sr := sr
          pc := mkWord (s.mem.byteAt 0xFFFB) (s.mem.byteAt 0xFFFA)
          icount := 0
          video := { s.video with blank := false, calls := .setBlank false :: .getBlank :: s.video.calls } } ∧
      srFlag sr .i = true ∧ (∀ f, f ≠ .i → srFlag sr f = s.flag f) ∧ sr.getLsbD 5 = s.sr.getLsbD 5

/-- R396, R390: a blank found pending when the gate is closed is cleared and lost; with none pending the step only asks. The
calls are recorded, the newest first (log entry 7). -/
def Obligations.BlankIsLostWhenTheGateIsClosed : Prop :=
  ∀ s : State,
    (s.video.blank = true → gateOpen s.params.nmiGate (s.flag .i) = false →
      serviceBlank s =
        { s with video := { s.video with blank := false, calls := .setBlank false :: .getBlank :: s.video.calls } }) ∧
    (s.video.blank = false →
      serviceBlank s = { s with video := { s.video with calls := .getBlank :: s.video.calls } })

/-- R390, R425: what a step adds to its instruction. It counts one, from 0 again when it began with an NMI entry; at a multiple of the
vertical-blank period it calls `set_blank(1)`, at a multiple of the render period it then calls `render` with the frame buffer of the
`exec` call and reports the frame ready; at a multiple of neither it makes no call and leaves the blank flag; nothing else
changes. "Every N" as a multiple of the counter is D18, the order of the two tests D39, the spec's own decisions; the frame
buffer is an input held in the state, the newest call stands first (log entries 17, 7). -/
def Obligations.StepCountsAndSignals : Prop :=
  ∀ s t : State, step s = .next t →
    ∃ (i : Instr) (u : State), fetchInstr (serviceBlank s) = .next i ∧ exec i (serviceBlank s) = .next u ∧
      let n := (if s.video.blank = true ∧ gateOpen s.params.nmiGate (s.flag .i) = true then 0 else s.icount) + 1
      let vblank := n % s.params.vblankPeriod = 0
      let ready := n % s.params.renderPeriod = 0
      let ends := fun (blank : Bool) (added : List VideoCall) =>
        t = { u with
          icount := n
          returns := decide ready :: s.returns
          video := { u.video with blank := blank, calls := added ++ u.video.calls } }
      (¬vblank → ¬ready → ends u.video.blank []) ∧
      (vblank → ¬ready → ends true [.setBlank true]) ∧
      (¬vblank → ready → ends u.video.blank [.render s.frameBuffer]) ∧
      (vblank → ready → ends true [.render s.frameBuffer, .setBlank true])

/-! ## Invariants and rules of the whole machine -/

/-- The reset state is well formed: its memory is in canonical form and every MMC1 write counter is below 5 (R45; reset memory is
empty by the model's choice, log entry 2). -/
def Obligations.ResetIsWellFormed : Prop := State.reset.Wf

/-- R45, R42: every step keeps the memory's canonical form and every MMC1 write counter in 0..4. -/
def Obligations.StepKeepsWellFormed : Prop :=
  ∀ s t : State, s.Wf → step s = .next t → t.Wf

/-- R36: after every instruction bit 5 of SR is 1. -/
def Obligations.EveryStepForcesTheUnusedStatusBit : Prop :=
  ∀ s t : State, step s = .next t → t.sr.getLsbD 5 = true

/-- R43, R44: no step changes the installed mapper or the cartridge image; nor the parameters of R5 (log entry 1), nor the host's frame
buffer (log entry 17). -/
def Obligations.StepKeepsMapperCartridgeAndParameters : Prop :=
  ∀ s t : State, step s = .next t →
    t.mapper = s.mapper ∧ t.cart = s.cart ∧ t.params = s.params ∧ t.frameBuffer = s.frameBuffer

/-- R42, R82, R83: no step writes the flat bytes behind the video window, or the one at 0x4014 (D15, the spec's own decision). -/
def Obligations.StepNeverStoresBehindTheDevicePorts : Prop :=
  ∀ (s t : State) (a : Nat), (0x2000 ≤ a ∧ a ≤ 0x2007) ∨ a = 0x4014 → step s = .next t →
    t.mem.byteAt a = s.mem.byteAt a

/-- R84, R100, R109: without an MMC1 a program cannot change the ROM window, nor the MMC1 state (D16, the spec's own decision). -/
def Obligations.RomIsConstantWithoutMmc1 : Prop :=
  ∀ s t : State, s.mapper ≠ .mmc1 → step s = .next t →
    t.mmc1 = s.mmc1 ∧ ∀ a, 0x8000 ≤ a → t.mem.byteAt a = s.mem.byteAt a

/-- R42, R84, R105, R107: whatever a program writes, the ROM window goes on showing two whole banks of the image. (That both
halves are copied is D23, that a missing bank faults before any byte is copied D29, the spec's own decisions.) -/
def Obligations.StepKeepsRomShowingWholeBanks : Prop :=
  ∀ s t : State, s.cart.Wf → RomShowsBanks s → step s = .next t → RomShowsBanks t

/-- R410, R411: every way a step can stop. It faults only by a fetch from the video window or by mapping a bank, a 16KB PRG bank
or a 4KB CHR unit, that is not in the image, the second only with an MMC1; it is refused only before a load, or where a
parameter says so, and leaves the state its call had reached (log entry 18). By R410's own column the fetch fault is D14, the
missing bank D29, the refusal of an unlisted opcode D11, of BRK D5, before a load D40, the spec's own decisions (log entry 12).
-/
def Obligations.StepStopsOnlyAsListed : Prop :=
  (∀ (s : State) (f : Fault), step s = .fault f →
    (∃ a left, f = .fetchFromMMIO a left ∧ ¬Fetchable a) ∨
    (∃ r bank left, f = .mapperBankOutOfRange r bank left ∧ s.mapper = .mmc1 ∧
      ((r = .prgBank ∧ s.cart.prgBanks ≤ bank) ∨
        ((r = .chrBank0 ∨ r = .chrBank1) ∧ s.cart.chrBanks ≠ 0 ∧ s.cart.chrBanks * 2 ≤ bank)))) ∧
  ∀ (s : State) (r : Refusal), step s = .refused r →
    (r = .notLoaded s ∧ s.mapper = .none) ∨ (r = .brk (serviceBlank s) ∧ s.params.brk = .refuse) ∨
    (∃ m : Mnemonic, r = .unlisted m (serviceBlank s) ∧ m.opClass = .undocumentedUnlisted ∧ s.params.unlisted = .refuse)

/-- R10, R411, R148: without an MMC1, and with no parameter that refuses, every instruction completes, in every state. -/
def Obligations.EveryInstructionCompletesWithoutMmc1 : Prop :=
  ∀ (i : Instr) (s : State), s.mapper ≠ .mmc1 → NoRefusal s.params →
    ∃ t, exec i s = .next t ∧ t.sr.getLsbD 5 = true ∧ t.icount = s.icount ∧ t.params = s.params

/-! ## Memory, bus and mapper -/

/-- R42: the flat array is its 65,536 bytes. A block write changes the bytes it names and no other, and stays in canonical form;
memories in that form that read alike at every address are the same data. (What an unlisted byte reads as is log entry 2.) -/
def Obligations.MemoryIsItsBytes : Prop :=
  (∀ (m : Memory) (base a : Nat) (bytes : List Byte), m.wf → base + bytes.length ≤ 65536 →
    (m.putBlock base bytes).wf ∧
    (m.putBlock base bytes).byteAt a =
      if base ≤ a ∧ a < base + bytes.length then bytes.getD (a - base) unlistedByte else m.byteAt a) ∧
  ∀ m n : Memory, m.wf → n.wf → (∀ a, m.byteAt a = n.byteAt a) → m = n

/-- R81, R61: a bus read goes to the video unit in 0x2000-0x2007, to the register its address selects in R81's order, and to the flat
array elsewhere. The byte read and the unit's blank flag are free values (R61 is D17, the spec's own decision), drawn with the
model's own counter `draws` (log entry 5); the call is recorded (log entry 7). -/
def Obligations.BusReadDispatches : Prop :=
  ∀ (a : Word) (s : State),
    let registers : List VideoReg :=
      [.control1, .control2, .status, .spriteAddress, .spriteData, .scroll, .vramAddress, .vramData]
    (Fetchable a → busRead a s = (s.mem.byteAt a.toNat, s)) ∧
    (¬Fetchable a → ∃ r, registers[a.toNat - 0x2000]? = some r ∧
      ∃ v blank, busRead a s = (v, { s with
        video := { blank := blank, calls := .read r :: s.video.calls, draws := s.video.draws + 1 } }))

/-- R82, R85, R81, R61: a bus write goes to the video unit in 0x2000-0x2007, to the register its address selects in R81's order, and to
the flat array everywhere else below 0x8000 but at 0x4014. The unit's blank flag is a free value (R61 is D17, the spec's own
decision), drawn with the model's own counter `draws` (log entry 5); the call is recorded (log entry 7). -/
def Obligations.BusWriteReachesVideoOrRam : Prop :=
  ∀ (a : Word) (v : Byte) (s : State),
    let registers : List VideoReg :=
      [.control1, .control2, .status, .spriteAddress, .spriteData, .scroll, .vramAddress, .vramData]
    (¬Fetchable a → ∃ r, registers[a.toNat - 0x2000]? = some r ∧
      ∃ blank, busWrite a v s = .next { s with
        video := { blank := blank, calls := .write r v :: s.video.calls, draws := s.video.draws + 1 } }) ∧
    (Fetchable a → a.toNat < 0x8000 → a ≠ 0x4014 →
      busWrite a v s = .next { s with mem := s.mem.put a.toNat v })

/-- R83, R84, R100: a write to 0x4014 hands the 256 bytes of page `v` of the flat array to the video unit and stores nothing
(D15, the spec's own decision; the call is recorded, log entry 7); a write to 0x8000-0xFFFF goes to the mapper hook, and without
an MMC1 has no effect (D16, the spec's own decision). -/
def Obligations.DmaAndRomWritesStoreNothing : Prop :=
  (∀ (v : Byte) (s : State), ∃ buffer : List Byte,
    busWrite 0x4014 v s = .next { s with video := { s.video with calls := .dmaWrite buffer :: s.video.calls } } ∧
    buffer.length = 256 ∧ ∀ k, k < 256 → buffer[k]? = some (s.mem.byteAt (v.toNat * 256 + k))) ∧
  ∀ (a : Word) (v : Byte) (s : State), 0x8000 ≤ a.toNat →
    busWrite a v s = mapperWrite a v s ∧ (s.mapper ≠ .mmc1 → busWrite a v s = .next s)

/-- R87: the 16-bit read takes its low byte at the address and its high byte at the next one, or at the start of the same page when the
address ends in 0xFF. -/
def Obligations.Read16WrapsWithinThePage : Prop :=
  ∀ (a : Word) (s : State),
    let high := if a.toNat % 256 = 255 then BitVec.ofNat 16 (a.toNat - 255) else BitVec.ofNat 16 (a.toNat + 1)
    let low := busRead a s
    (read16 a s).1 = mkWord (busRead high low.2).1 low.1 ∧ (read16 a s).2 = (busRead high low.2).2

/-- R176-R181, R172, R174: the effective address of every memory mode, the zero-page sums and pointers wrapping within the page, the
16-bit sums at 0xFFFF; an operand is the immediate byte or one bus read at that address. (The wraps are D2 and D3, the spec's own
decisions.) -/
def Obligations.AddressingModesReachTheirAddress : Prop :=
  ∀ (s : State) (z : Byte) (a : Word),
    let pointer := fun k : Nat => (s.mem.byteAt (k % 256)).toNat + (s.mem.byteAt ((k + 1) % 256)).toNat * 256
    addressOf (.zp z) s = BitVec.ofNat 16 z.toNat ∧
    addressOf (.zpx z) s = BitVec.ofNat 16 ((z.toNat + s.x.toNat) % 256) ∧
    addressOf (.zpy z) s = BitVec.ofNat 16 ((z.toNat + s.y.toNat) % 256) ∧
    addressOf (.abs a) s = a ∧
    addressOf (.abx a) s = BitVec.ofNat 16 ((a.toNat + s.x.toNat) % 65536) ∧
    addressOf (.aby a) s = BitVec.ofNat 16 ((a.toNat + s.y.toNat) % 65536) ∧
    addressOf (.izx z) s = BitVec.ofNat 16 (pointer (z.toNat + s.x.toNat)) ∧
    addressOf (.izy z) s = BitVec.ofNat 16 ((pointer z.toNat + s.y.toNat) % 65536) ∧
    readSource (.imm z) s = (z, s) ∧ ∀ m, readSource (.mem m) s = busRead (addressOf m s) s

/-- R101, R102, R104: five writes with bit 7 clear to one MMC1 register, from an empty accumulator, commit the value whose bit k is bit 0 of
write k; only the fifth commits, and its side effect is the register's. R104: a control commit has none: it changes the control
register only and re-maps nothing (D22, the spec's own decision). -/
def Obligations.FiveSerialWritesCommit : Prop :=
  ∀ (s : State) (r : MapperReg) (a1 a2 a3 a4 a5 : Word) (v1 v2 v3 v4 v5 : Byte) (value : BitVec 5),
    s.mapper = .mmc1 → (s.mmc1.reg r).count = 0 →
    (∀ a ∈ [a1, a2, a3, a4, a5], 0x8000 ≤ a.toNat ∧ mapperRegAt a = r) →
    (∀ v ∈ [v1, v2, v3, v4, v5], v.msb = false) →
    (∀ k, k < 5 → [v1, v2, v3, v4, v5][k]?.map (fun v => v.getLsbD 0) = some (value.getLsbD k)) →
    ∃ s4, (andThen (busWrite a1 v1 s) fun t => andThen (busWrite a2 v2 t) fun t => andThen (busWrite a3 v3 t) fun t =>
        busWrite a4 v4 t) = .next s4 ∧
      (s4.mmc1.reg r).value = (s.mmc1.reg r).value ∧ (s4.mmc1.reg r).count = 4 ∧
      busWrite a5 v5 s4 = commitEffect r
        { s with mmc1 := s.mmc1.setReg r { shift := 0, count := 0, value := value, committed := true } } ∧
      (r = .control → busWrite a5 v5 s4 = .next
        { s with mmc1 := { s.mmc1 with control := { shift := 0, count := 0, value := value, committed := true } } })

/-- R101, R103: an address selects its register by `address & 0xE000`; a write to one register leaves the three others alone; a write with
bit 7 set clears the selected register's accumulator, counter and commit flag and nothing else, its value included (D25, the
spec's own decision). -/
def Obligations.MapperRegistersAreIndependent : Prop :=
  (∀ a : Word, 0x8000 ≤ a.toNat →
    (a &&& 0xE000 = 0x8000 → mapperRegAt a = .control) ∧ (a &&& 0xE000 = 0xA000 → mapperRegAt a = .chrBank0) ∧
    (a &&& 0xE000 = 0xC000 → mapperRegAt a = .chrBank1) ∧ (a &&& 0xE000 = 0xE000 → mapperRegAt a = .prgBank)) ∧
  (∀ (s t : State) (a : Word) (v : Byte) (r : MapperReg), mapperWrite a v s = .next t → r ≠ mapperRegAt a →
    t.mmc1.reg r = s.mmc1.reg r) ∧
  ∀ (s : State) (a : Word) (v : Byte), s.mapper = .mmc1 → 0x8000 ≤ a.toNat → v.msb = true →
    ∃ g : Mmc1Reg, busWrite a v s = .next { s with mmc1 := s.mmc1.setReg (mapperRegAt a) g } ∧
      g.shift = 0 ∧ g.count = 0 ∧ g.committed = false ∧ g.value = (s.mmc1.reg (mapperRegAt a)).value

/-- R104, R105, R107: a PRG-bank commit maps, by bits 3:2 of control, a pair of banks, bank 0 and the selected one, or the
selected one and the last; RAM and everything else stay. (Copying the fixed half again, and ignoring bit 4, are D23, the fault
for a missing bank, before any byte is copied, is D29, the spec's own decisions, log entry 12; the bank-index bits are general
knowledge by the spec's own mark.) -/
def Obligations.PrgCommitMapsItsBanks : Prop :=
  ∀ (s : State) (low high : Nat), s.cart.Wf →
    let mode := s.mmc1.control.value.toNat / 4 % 4
    let v := s.mmc1.prgBank.value.toNat
    (mode ≤ 1 → low = v % 16 / 2 * 2 ∧ high = v % 16 / 2 * 2 + 1) →
    (mode = 2 → low = 0 ∧ high = v % 16) →
    (mode = 3 → low = v % 16 ∧ high = s.cart.prgBanks - 1) →
    (low < s.cart.prgBanks → high < s.cart.prgBanks →
      ∃ m, commitEffect .prgBank s = .next { s with mem := m } ∧
        ShowsBank { s with mem := m } 0x8000 low ∧ ShowsBank { s with mem := m } 0xC000 high ∧
        ∀ a, a < 0x8000 → m.byteAt a = s.mem.byteAt a) ∧
    (s.cart.prgBanks ≤ low → commitEffect .prgBank s = .fault (.mapperBankOutOfRange .prgBank low s)) ∧
    (low < s.cart.prgBanks → s.cart.prgBanks ≤ high →
      commitEffect .prgBank s = .fault (.mapperBankOutOfRange .prgBank high s))

/-- R106: a CHR-bank commit hands the selected 8KB or 4KB of the image to the pattern memory, has no effect where the mode or an
image without CHR gives it none, and faults outside the image. (The image without CHR is D24, the fault outside the image D29,
the spec's own decisions, log entry 12; the calls are recorded, the newest first, log entry 7.) -/
def Obligations.ChrCommitMapsItsUnits : Prop :=
  ∀ s : State,
    let units := s.cart.chrBanks * 2
    let send := fun (u k off : Nat) => { s with video := { s.video with
      calls := .setPatternMemory off ((s.cart.chr.drop (u * 4096)).take (k * 4096)) :: s.video.calls } }
    let u0 := s.mmc1.chrBank0.value.toNat
    let u1 := s.mmc1.chrBank1.value.toNat
    (s.cart.chrBanks = 0 → commitEffect .chrBank0 s = .next s ∧ commitEffect .chrBank1 s = .next s) ∧
    (s.cart.chrBanks ≠ 0 → s.mmc1.control.value.getLsbD 4 = false →
      commitEffect .chrBank1 s = .next s ∧
      (u0 / 2 * 2 + 2 ≤ units → commitEffect .chrBank0 s = .next (send (u0 / 2 * 2) 2 0x0000)) ∧
      (units < u0 / 2 * 2 + 2 → commitEffect .chrBank0 s = .fault (.mapperBankOutOfRange .chrBank0 (u0 / 2 * 2) s))) ∧
    (s.cart.chrBanks ≠ 0 → s.mmc1.control.value.getLsbD 4 = true →
      (u0 + 1 ≤ units → commitEffect .chrBank0 s = .next (send u0 1 0x0000)) ∧
      (units < u0 + 1 → commitEffect .chrBank0 s = .fault (.mapperBankOutOfRange .chrBank0 u0 s)) ∧
      (u1 + 1 ≤ units → commitEffect .chrBank1 s = .next (send u1 1 0x1000)) ∧
      (units < u1 + 1 → commitEffect .chrBank1 s = .fault (.mapperBankOutOfRange .chrBank1 u1 s)))

/-- R105-R107, R411: a bus write completes exactly when it commits no bank outside the image. That a missing bank stops the
write is D29, that without CHR no unit is missing D24, and which index bits select a PRG bank D23, the spec's own decisions (log
entry 12). -/
def Obligations.BusWriteCompletesUnlessABankIsMissing : Prop :=
  ∀ (a : Word) (v : Byte) (s : State), (∃ t, busWrite a v s = .next t) ↔ WriteCompletes a v s

/-! ## Arithmetic and transfer instructions -/

/-- R205, R206, R207: ORA, AND, EOR in every mode. The operand is read by R172; nothing but A, N, Z, PC and bit 5 of SR changes beyond
what the read itself does. -/
def Obligations.LogicInstructionsCombineIntoA : Prop :=
  ∀ (i : Instr) (o : Source) (s : State),
    let m := readSource o s
    (i.form = ⟨.ora, .src o⟩ → Runs i s { m.2 with a := s.a ||| m.1 } (nzOf (s.a ||| m.1))) ∧
    (i.form = ⟨.and, .src o⟩ → Runs i s { m.2 with a := s.a &&& m.1 } (nzOf (s.a &&& m.1))) ∧
    (i.form = ⟨.eor, .src o⟩ → Runs i s { m.2 with a := s.a ^^^ m.1 } (nzOf (s.a ^^^ m.1)))

/-- R208, R201: ADC in every mode, in binary whatever D holds (R216). -/
def Obligations.AdcAddsWithCarry : Prop :=
  ∀ (i : Instr) (o : Source) (s : State), i.form = ⟨.adc, .src o⟩ →
    let m := readSource o s
    let sum := s.a.toNat + m.1.toNat + (s.flag .c).toNat
    let r := BitVec.ofNat 8 (sum % 256)
    Runs i s { m.2 with a := r }
      (nzOf r ++ [(.c, decide (sum > 255)), (.v, s.a.msb == m.1.msb && r.msb != s.a.msb)])

/-- R209, R202, R359: SBC in every mode and USBC, in binary whatever D holds (R216). V is D10, binary arithmetic D9, the spec's
own decisions. -/
def Obligations.SbcSubtractsWithBorrow : Prop :=
  ∀ (i : Instr) (o : Source) (s : State), i.form = ⟨.sbc, .src o⟩ ∨ i.form = ⟨.usbc, .src o⟩ →
    let m := readSource o s
    let diff : Int := s.a.toNat - m.1.toNat - (1 - (s.flag .c).toNat)
    let r := BitVec.ofNat 8 (diff % 256).toNat
    Runs i s { m.2 with a := r }
      (nzOf r ++ [(.c, decide (diff ≥ 0)), (.v, s.a.msb != m.1.msb && r.msb != s.a.msb)])

/-- R215, R202: SUBTRACT with the complemented carry undoes ADD; and SUBTRACT of `m` is ADD of `m ^ 0xFF`, result and flags (V is D10,
the spec's own decision). -/
def Obligations.SubtractUndoesAdd : Prop :=
  (∀ (a b : Byte) (s t : State), t.flag .c = (!s.flag .c) → (subBytes (addBytes a b s).1 b t).1 = a) ∧
  ∀ (a m : Byte) (s : State), subBytes a m s = addBytes a (m ^^^ 0xFF) s

/-- R210, R211, R212, R203, R213: the compares and BIT. No register changes. (BIT is general knowledge and D4 by the spec's own marks.) -/
def Obligations.ComparesAndBitWriteFlagsOnly : Prop :=
  ∀ (i : Instr) (o : Source) (s : State),
    let m := readSource o s
    let flags := fun r : Byte =>
      [(Flag.z, r == m.1), (.c, decide (r.toNat ≥ m.1.toNat)), (.n, (r - m.1).msb)]
    (i.form = ⟨.cmp, .src o⟩ → Runs i s m.2 (flags s.a)) ∧
    (i.form = ⟨.cpx, .src o⟩ → Runs i s m.2 (flags s.x)) ∧
    (i.form = ⟨.cpy, .src o⟩ → Runs i s m.2 (flags s.y)) ∧
    (i.form = ⟨.bit, .src o⟩ → Runs i s m.2 [(.z, s.a &&& m.1 == 0), (.n, m.1.getLsbD 7), (.v, m.1.getLsbD 6)])

/-- R260, R261, R262, R350: LDA, LDX, LDY and LAX in every mode. (N and Z of LDX and LDY are D4, LAX is general knowledge, by the spec's
own marks.) -/
def Obligations.LoadsWriteTheirRegisters : Prop :=
  ∀ (i : Instr) (o : Source) (s : State),
    let m := readSource o s
    (i.form = ⟨.lda, .src o⟩ → Runs i s { m.2 with a := m.1 } (nzOf m.1)) ∧
    (i.form = ⟨.ldx, .src o⟩ → Runs i s { m.2 with x := m.1 } (nzOf m.1)) ∧
    (i.form = ⟨.ldy, .src o⟩ → Runs i s { m.2 with y := m.1 } (nzOf m.1)) ∧
    (i.form = ⟨.lax, .src o⟩ → Runs i s { m.2 with a := m.1, x := m.1 } (nzOf m.1))

/-- R263, R264, R265, R351, R185: a store is one bus write at its effective address, and no flag. It completes unless the write
commits a missing bank, and then it is that fault. (SAX is general knowledge by the spec's own mark; that a missing bank is a
fault is D29, the spec's own decision.) -/
def Obligations.StoresWriteOnceAndTouchNoFlag : Prop :=
  ∀ (i : Instr) (m : MemMode) (s : State) (v : Byte),
    (i.form = ⟨.sta, .src (.mem m)⟩ ∧ v = s.a) ∨ (i.form = ⟨.stx, .src (.mem m)⟩ ∧ v = s.x) ∨
      (i.form = ⟨.sty, .src (.mem m)⟩ ∧ v = s.y) ∨ (i.form = ⟨.sax, .src (.mem m)⟩ ∧ v = s.a &&& s.x) →
    WritesAndRuns i s s (addressOf m s) v id []

/-- R358, R185: TAS: SP takes A AND X, and SP AND (high byte of the operand + 1) is stored at `addr16 + Y`; a write that commits
a missing bank is that fault (TAS is D32, the fault D29, the spec's own decisions). -/
def Obligations.TasSetsSpAndStores : Prop :=
  ∀ (i : Instr) (a : Word) (s : State), i.form = ⟨.tas, .src (.mem (.aby a))⟩ →
    let s' := { s with sp := s.a &&& s.x }
    let v := s.a &&& s.x &&& BitVec.ofNat 8 (a.toNat / 256 + 1)
    let e := BitVec.ofNat 16 (a.toNat + s.y.toNat)
    WritesAndRuns i s s' e v id []

/-- R266-R271: the register transfers (N and Z of TSX are D4, the spec's own decision). -/
def Obligations.TransfersCopyRegisters : Prop :=
  ∀ s : State,
    Runs .tax s { s with x := s.a } (nzOf s.a) ∧ Runs .tay s { s with y := s.a } (nzOf s.a) ∧
    Runs .txa s { s with a := s.x } (nzOf s.x) ∧ Runs .tya s { s with a := s.y } (nzOf s.y) ∧
    Runs .tsx s { s with x := s.sp } (nzOf s.sp) ∧ Runs .txs s { s with sp := s.x } []

/-- R233-R236, R230, R231, R239-R242: the accumulator forms of the shifts and rotates, and INX, INY, DEX, DEY, which wrap modulo 256 and
write N and Z only. -/
def Obligations.RegisterShiftsAndSteps : Prop :=
  ∀ s : State,
    let up := fun v : Byte => BitVec.ofNat 8 ((v.toNat + 1) % 256)
    let down := fun v : Byte => BitVec.ofNat 8 ((v.toNat + 255) % 256)
    let c := (s.flag .c).toNat
    let shl := BitVec.ofNat 8 (s.a.toNat * 2 % 256)
    let shr := BitVec.ofNat 8 (s.a.toNat / 2)
    let rol := BitVec.ofNat 8 (s.a.toNat * 2 % 256 + c)
    let ror := BitVec.ofNat 8 (s.a.toNat / 2 + c * 128)
    Runs .aslAcc s { s with a := shl } (nzOf shl ++ [(.c, s.a.getLsbD 7)]) ∧
    Runs .lsrAcc s { s with a := shr } (nzOf shr ++ [(.c, s.a.getLsbD 0)]) ∧
    Runs .rolAcc s { s with a := rol } (nzOf rol ++ [(.c, s.a.getLsbD 7)]) ∧
    Runs .rorAcc s { s with a := ror } (nzOf ror ++ [(.c, s.a.getLsbD 0)]) ∧
    Runs .inx s { s with x := up s.x } (nzOf (up s.x)) ∧ Runs .iny s { s with y := up s.y } (nzOf (up s.y)) ∧
    Runs .dex s { s with x := down s.x } (nzOf (down s.x)) ∧ Runs .dey s { s with y := down s.y } (nzOf (down s.y))

/-- R232-R238, R185: the memory forms of the shifts, rotates, INC and DEC: one read and one write of the effective address; INC
and DEC write no carry; a write that commits a missing bank is that fault. (N and Z from the result are D4, the single write
D13, the fault for a missing bank D29, the spec's own decisions.) -/
def Obligations.MemoryShiftsAndSteps : Prop :=
  ∀ (i : Instr) (m : MemMode) (s : State),
    let e := addressOf m s
    let old := busRead e s
    let v := old.1.toNat
    let c := (s.flag .c).toNat
    let rmw := fun (mn : Mnemonic) (r : Byte) (writes : List (Flag × Bool)) =>
      i.form = ⟨mn, .src (.mem m)⟩ → WritesAndRuns i s old.2 e r id (nzOf r ++ writes)
    rmw .asl (BitVec.ofNat 8 (v * 2 % 256)) [(.c, old.1.getLsbD 7)] ∧
    rmw .lsr (BitVec.ofNat 8 (v / 2)) [(.c, old.1.getLsbD 0)] ∧
    rmw .rol (BitVec.ofNat 8 (v * 2 % 256 + c)) [(.c, old.1.getLsbD 7)] ∧
    rmw .ror (BitVec.ofNat 8 (v / 2 + c * 128)) [(.c, old.1.getLsbD 0)] ∧
    rmw .inc (BitVec.ofNat 8 ((v + 1) % 256)) [] ∧
    rmw .dec (BitVec.ofNat 8 ((v + 255) % 256)) []

/-- R352-R357, R185: the undocumented read-modify-write instructions (general knowledge by the spec's own marks): the byte is
written back, then combined with A; a write that commits a missing bank is that fault. RRA adds with the carry its rotate
produced. (The single write is D13, the fault D29, the spec's own decisions.) -/
def Obligations.UndocumentedReadModifyWrite : Prop :=
  ∀ (i : Instr) (m : MemMode) (s : State),
    let e := addressOf m s
    let old := busRead e s
    let v := old.1
    let c := (s.flag .c).toNat
    let rmw := fun (mn : Mnemonic) (r a : Byte) (writes : List (Flag × Bool)) =>
      i.form = ⟨mn, .src (.mem m)⟩ → WritesAndRuns i s old.2 e r (fun u => { u with a := a }) writes
    let shl := BitVec.ofNat 8 (v.toNat * 2 % 256)
    let rol := BitVec.ofNat 8 (v.toNat * 2 % 256 + c)
    let shr := BitVec.ofNat 8 (v.toNat / 2)
    let ror := BitVec.ofNat 8 (v.toNat / 2 + c * 128)
    let sum := s.a.toNat + ror.toNat + (v.getLsbD 0).toNat
    let added := BitVec.ofNat 8 (sum % 256)
    let diff : Int := s.a.toNat - (v + 1).toNat - (1 - c)
    let left := BitVec.ofNat 8 (diff % 256).toNat
    rmw .slo shl (s.a ||| shl) (nzOf (s.a ||| shl) ++ [(.c, v.getLsbD 7)]) ∧
    rmw .rla rol (s.a &&& rol) (nzOf (s.a &&& rol) ++ [(.c, v.getLsbD 7)]) ∧
    rmw .sre shr (s.a ^^^ shr) (nzOf (s.a ^^^ shr) ++ [(.c, v.getLsbD 0)]) ∧
    rmw .rra ror added
      (nzOf added ++ [(.c, decide (sum > 255)), (.v, s.a.msb == ror.msb && added.msb != s.a.msb)]) ∧
    rmw .dcp (v - 1) s.a
      [(.z, s.a == v - 1), (.c, decide (s.a.toNat ≥ (v - 1).toNat)), (.n, (s.a - (v - 1)).msb)] ∧
    rmw .isb (v + 1) left
      (nzOf left ++ [(.c, decide (diff ≥ 0)), (.v, s.a.msb != (v + 1).msb && left.msb != s.a.msb)])

/-! ## Stack, flags, no-operations -/

/-- R290-R293, R89, R90: PHA, PLA, PHP, PLP. The stack page is D1, B and bit 5 of PHP and PLP D8, the spec's own decisions. -/
def Obligations.PushesAndPulls : Prop :=
  ∀ s : State,
    let v := s.mem.byteAt (0x0100 + (s.sp + 1).toNat)
    Runs .pha s { s with mem := s.mem.put (0x0100 + s.sp.toNat) s.a, sp := s.sp - 1 } [] ∧
    Runs .php s { s with mem := s.mem.put (0x0100 + s.sp.toNat) (s.sr ||| 0x30), sp := s.sp - 1 } [] ∧
    Runs .pla s { s with a := v, sp := s.sp + 1 } (nzOf v) ∧
    Runs .plp s { s with sp := s.sp + 1 }
      [(.n, v.getLsbD 7), (.v, v.getLsbD 6), (.b, false), (.d, v.getLsbD 3), (.i, v.getLsbD 2), (.z, v.getLsbD 1),
        (.c, v.getLsbD 0)]

/-- R294-R300: each flag instruction writes its one flag. -/
def Obligations.FlagInstructionsWriteOneFlag : Prop :=
  ∀ s : State,
    Runs .clc s s [(.c, false)] ∧ Runs .sec s s [(.c, true)] ∧ Runs .cli s s [(.i, false)] ∧
    Runs .sei s s [(.i, true)] ∧ Runs .clv s s [(.v, false)] ∧ Runs .cld s s [(.d, false)] ∧ Runs .sed s s [(.d, true)]

/-- R301, R360: NOP and the 27 illegal NOPs change PC and bit 5 of SR only; no memory is read (D12, the spec's own decision). -/
def Obligations.NopsOnlyAdvance : Prop :=
  ∀ (i : Instr) (s : State), i.mnemonic = .nop ∨ i.mnemonic = .nopStar → Runs i s s []

/-- R361-R372: the 24 opcodes the source does not name are no-operations of their length under `P_UNLISTED = Nop`, and refused
under `Refuse`, before any state change (D11, D12, D31, D33, the spec's own decisions; the state a refusal leaves is log entry
18). -/
def Obligations.UnlistedOpcodesFollowTheirPolicy : Prop :=
  ∀ (i : Instr) (s : State), i.mnemonic.opClass = .undocumentedUnlisted →
    (s.params.unlisted = .nop → Runs i s s []) ∧
    (s.params.unlisted = .refuse → exec i s = .refused (.unlisted i.mnemonic s))

/-! ## Control transfer -/

/-- R320, R182, R321: JMP, absolute and indirect; JSR pushes `pc0 + 2`, high byte first, and jumps (the stack page is D1, the spec's own
decision). -/
def Obligations.JumpsAndCallsReachTheirTarget : Prop :=
  ∀ (a : Word) (s : State),
    let ret := (s.pc.toNat + 2) % 65536
    RunsTo (.jmpAbs a) s s a [] ∧
    RunsTo (.jmpInd a) s (read16 a s).2 (read16 a s).1 [] ∧
    RunsTo (.jsrAbs a) s
      { s with
        mem := (s.mem.put (0x0100 + s.sp.toNat) (BitVec.ofNat 8 (ret / 256))).put (0x0100 + (s.sp - 1).toNat)
          (BitVec.ofNat 8 (ret % 256))
        sp := s.sp - 2 } a []

/-- R322, R323: RTS pulls an address and adds one; RTI pulls status, clearing B and setting bit 5, and an address (the stack page is
D1, the spec's own decision). -/
def Obligations.ReturnsPullTheirFrames : Prop :=
  ∀ s : State,
    let pulled := fun k : Byte => s.mem.byteAt (0x0100 + (s.sp + k).toNat)
    let v := pulled 1
    RunsTo .rts s { s with sp := s.sp + 2 } (BitVec.ofNat 16 ((pulled 2).toNat * 256 + (pulled 1).toNat + 1)) [] ∧
    RunsTo .rti s { s with sp := s.sp + 3 } (BitVec.ofNat 16 ((pulled 3).toNat * 256 + (pulled 2).toNat))
      [(.n, v.getLsbD 7), (.v, v.getLsbD 6), (.b, false), (.d, v.getLsbD 3), (.i, v.getLsbD 2), (.z, v.getLsbD 1),
        (.c, v.getLsbD 0)]

/-- R324, R395: BRK pushes `pc0 + 2` and the status with B and bit 5 set; under `Vector` it sets I and goes through 0xFFFE, under
`Inert` it goes on at `pc0 + 2`, under `Refuse` it is refused before any state change; whatever I is (D5 and D1, the spec's
own decisions; the state a refusal leaves is log entry 18). -/
def Obligations.BrkFollowsItsPolicy : Prop :=
  ∀ (padding : Byte) (s : State),
    let pushed := { s with
      mem := ((s.mem.put (stackAddr s.sp).toNat (hiByte (s.pc + 2))).put (stackAddr (s.sp - 1)).toNat
        (loByte (s.pc + 2))).put (stackAddr (s.sp - 2)).toNat (s.sr ||| 0x30)
      sp := s.sp - 3 }
    (s.params.brk = .vector → RunsTo (.brk padding) s pushed
      (mkWord (s.mem.byteAt 0xFFFF) (s.mem.byteAt 0xFFFE)) [(.i, true)]) ∧
    (s.params.brk = .inert → RunsTo (.brk padding) s pushed (s.pc + 2) []) ∧
    (s.params.brk = .refuse → exec (.brk padding) s = .refused (.brk s))

/-- R325-R333: each branch tests its one flag; taken it goes to `pc0 + disp + 2`, else to `pc0 + 2`; nothing else changes (the wrap at
0xFFFF is D3, the spec's own decision). -/
def Obligations.BranchesTestOneFlag : Prop :=
  ∀ (d : Int) (s : State),
    let goes := fun (i : Instr) (taken : Bool) =>
      RunsTo i s s (BitVec.ofInt 16 (if taken then s.pc.toNat + d + 2 else s.pc.toNat + 2)) []
    goes (.bpl d) (!s.flag .n) ∧ goes (.bmi d) (s.flag .n) ∧ goes (.bvc d) (!s.flag .v) ∧ goes (.bvs d) (s.flag .v) ∧
    goes (.bcc d) (!s.flag .c) ∧ goes (.bcs d) (s.flag .c) ∧ goes (.bne d) (!s.flag .z) ∧ goes (.beq d) (s.flag .z)

/-- R322, R394, R323: RTS, from a state with the stack JSR left, returns to the instruction after the JSR; RTI, from a state
with the stack an NMI entry left, resumes at the interrupted PC with the interrupted flags, B cleared; SP is as it was. (That
the interrupted PC is the one at the start of the step is D41, the pushed status D7, the stack page D1, the spec's own
decisions.) -/
def Obligations.ReturnsUndoTheirCalls : Prop :=
  (∀ (a : Word) (s t u v : State), exec (.jsrAbs a) s = .next t → u.mem = t.mem → u.sp = t.sp →
    exec .rts u = .next v → v.pc = s.pc + 3 ∧ v.sp = s.sp) ∧
  ∀ s u v : State, u.mem = (enterNmi s).mem → u.sp = (enterNmi s).sp → exec .rti u = .next v →
    v.pc = s.pc ∧ v.sp = s.sp ∧ v.flag .b = false ∧ ∀ f, f ≠ .b → v.flag f = s.flag f

/-! ## Frames over all instructions -/

/-- R30-R33: which instructions write A, X, Y and SP; every other instruction leaves the register as it was. -/
def Obligations.RegistersHaveTheirWriters : Prop :=
  ∀ (i : Instr) (s t : State), exec i s = .next t →
    (i.mnemonic ∉ [.ora, .and, .eor, .adc, .sbc, .lda, .pla, .txa, .tya, .lax, .slo, .rla, .sre, .rra, .isb, .usbc] →
      i.operand ≠ .acc → t.a = s.a) ∧
    (i.mnemonic ∉ [.ldx, .tax, .tsx, .inx, .dex, .lax] → t.x = s.x) ∧
    (i.mnemonic ∉ [.ldy, .tay, .iny, .dey] → t.y = s.y) ∧
    (i.mnemonic ∉ [.txs, .tas, .pha, .pla, .php, .plp, .jsr, .rts, .rti, .brk] → t.sp = s.sp)

/-- R37-R40: which instructions write each flag; every other instruction leaves it as it was. -/
def Obligations.FlagsHaveTheirWriters : Prop :=
  ∀ (i : Instr) (s t : State), exec i s = .next t →
    (i.mnemonic ∉ [.ora, .and, .eor, .adc, .sbc, .lda, .ldx, .ldy, .tax, .tay, .txa, .tya, .tsx, .pla, .inc, .dec, .inx,
        .iny, .dex, .dey, .asl, .lsr, .rol, .ror, .lax, .slo, .rla, .sre, .rra, .isb, .usbc, .cmp, .cpx, .cpy, .dcp, .bit,
        .plp, .rti] → t.flag .n = s.flag .n ∧ t.flag .z = s.flag .z) ∧
    (i.mnemonic ∉ [.adc, .sbc, .rra, .isb, .usbc, .bit, .clv, .plp, .rti] → t.flag .v = s.flag .v) ∧
    (i.mnemonic ∉ [.plp, .rti] → t.flag .b = s.flag .b) ∧
    (i.mnemonic ∉ [.sed, .cld, .plp, .rti] → t.flag .d = s.flag .d) ∧
    (i.mnemonic ∉ [.sei, .cli, .plp, .rti, .brk] → t.flag .i = s.flag .i) ∧
    (i.mnemonic ∉ [.adc, .sbc, .cmp, .cpx, .cpy, .dcp, .asl, .lsr, .rol, .ror, .slo, .rla, .sre, .rra, .isb, .usbc, .clc,
        .sec, .plp, .rti] → t.flag .c = s.flag .c)

/-- R93, R172: memory and the mapper. An instruction that stores nothing leaves every byte and the MMC1 state alone. One that
stores through a memory mode changes, below 0x8000, at most the byte at its effective address, and with that address below
0x8000 nothing else and no MMC1 state. A push changes its stack bytes only. (That an instruction makes exactly the accesses of
its rule is D13, the stack page D1, the spec's own decisions.) -/
def Obligations.MemoryChangesOnlyWhereStored : Prop :=
  ∀ (i : Instr) (s t : State), exec i s = .next t →
    let storing : List Mnemonic := [.sta, .stx, .sty, .sax, .tas, .asl, .lsr, .rol, .ror, .inc, .dec, .dcp, .isb, .slo, .rla,
      .sre, .rra]
    let same := fun a => t.mem.byteAt a = s.mem.byteAt a
    (i.mnemonic ∉ storing ++ [.pha, .php, .jsr, .brk] ∨ i.operand = .acc →
      t.mmc1 = s.mmc1 ∧ ∀ a, same a) ∧
    (∀ m, i.mnemonic ∈ storing → i.operand = .src (.mem m) →
      (∀ a, a < 0x8000 → a ≠ (addressOf m s).toNat → same a) ∧
      ((addressOf m s).toNat < 0x8000 → t.mmc1 = s.mmc1 ∧ ∀ a, a ≠ (addressOf m s).toNat → same a)) ∧
    (i.mnemonic = .pha ∨ i.mnemonic = .php →
      t.mmc1 = s.mmc1 ∧ ∀ a, a ≠ (stackAddr s.sp).toNat → same a) ∧
    (i.mnemonic = .jsr → t.mmc1 = s.mmc1 ∧
      ∀ a, a ≠ (stackAddr s.sp).toNat → a ≠ (stackAddr (s.sp - 1)).toNat → same a) ∧
    (i.mnemonic = .brk → t.mmc1 = s.mmc1 ∧
      ∀ a, a ≠ (stackAddr s.sp).toNat → a ≠ (stackAddr (s.sp - 1)).toNat → a ≠ (stackAddr (s.sp - 2)).toNat → same a)

/-- R43, R44, R46, R93: no instruction changes the mapper kind, the cartridge, the harness's counter and results, the
parameters, or the frame buffer (log entries 1, 7, 17); and one without a memory operand and without a pointer makes no call to
the video unit (D12 and D13, the spec's own decisions). -/
def Obligations.InstructionsLeaveTheHarnessAlone : Prop :=
  ∀ (i : Instr) (s t : State), exec i s = .next t →
    t.mapper = s.mapper ∧ t.cart = s.cart ∧ t.icount = s.icount ∧ t.returns = s.returns ∧ t.params = s.params ∧
    t.frameBuffer = s.frameBuffer ∧
    (i.mnemonic = .nopStar ∨ i.mnemonic.opClass = .undocumentedUnlisted ∨
      i.operand ∈ [.imp, .acc] ∨ (∃ v, i.operand = .src (.imm v)) ∨ (∃ d, i.operand = .rel d) → t.video = s.video)

/-! ## The cartridge load -/

/-- R445, R50, R450, R440, R61: after a load every register has its launch value, RAM its launch bytes, the MMC1 its initial
state, and PC the reset vector of the bank just mapped. (The launch values are arguments, R5 and D19; the MMC1 values are D21,
the counter's D18, the spec's own decisions.) The load keeps what is the host's: the video unit's blank flag as it finds it (R50
calls it a parameter; the model's choice, log entry 6), the parameters (log entry 1) and the frame buffer (log entry 17). -/
def Obligations.LoadSetsTheResetState : Prop :=
  ∀ (l : Launch) (image : List Byte) (s t : State), l.ram.length = 32768 → s.load l image = .next t →
    t.a = l.a ∧ t.x = l.x ∧ t.y = l.y ∧ t.sp = l.sp ∧ t.sr = l.sr ∧
    (∀ a, a < 32768 → l.ram[a]? = some (t.mem.byteAt a)) ∧
    t.mmc1.control = ⟨0, 0, 0x0C, false⟩ ∧ t.mmc1.chrBank0 = ⟨0, 0, 0, false⟩ ∧
    t.mmc1.chrBank1 = ⟨0, 0, 0, false⟩ ∧ t.mmc1.prgBank = ⟨0, 0, 0, false⟩ ∧
    t.icount = 0 ∧ t.params = s.params ∧ t.video.blank = s.video.blank ∧
    t.frameBuffer = s.frameBuffer ∧
    t.pc = mkWord (t.mem.byteAt 0xFFFD) (t.mem.byteAt 0xFFFC)

/-- R440, R446, R447, R448, R449: the cartridge from the bytes of the image, the mapper by the identifier, the initial bank
mapping of each, and the character data sent. (The places of PRG and CHR in the image are general knowledge and D26, the first
8KB of character data and no call for an image without any D37 and D24, the spec's own decisions; the call is recorded, the
newest first, log entry 7.) -/
def Obligations.LoadMapsTheInitialBanks : Prop :=
  ∀ (l : Launch) (image : List Byte) (s t : State), s.load l image = .next t →
    let prgLen := (image.getD 4 0).toNat * 16384
    let chrLen := (image.getD 5 0).toNat * 8192
    t.cart.prgBanks = (image.getD 4 0).toNat ∧ t.cart.chrBanks = (image.getD 5 0).toNat ∧
    t.cart.mapperId.toNat = (image.getD 7 0).toNat / 16 * 16 + (image.getD 6 0).toNat / 16 ∧
    t.cart.region = (image.getD 9 0).getLsbD 0 ∧
    (t.cart.prg.length = prgLen ∧ ∀ k, k < prgLen → t.cart.prg[k]? = image[16 + k]?) ∧
    (t.cart.chr.length = chrLen ∧ ∀ k, k < chrLen → t.cart.chr[k]? = image[16 + prgLen + k]?) ∧
    (t.mapper = .noMapper ∧ t.cart.mapperId = 0 ∧ ShowsBank t 0x8000 0 ∧
        (t.cart.prgBanks = 1 ∧ ShowsBank t 0xC000 0 ∨ t.cart.prgBanks = 2 ∧ ShowsBank t 0xC000 1) ∨
      t.mapper = .mmc1 ∧ t.cart.mapperId = 1 ∧ 2 ≤ t.cart.prgBanks ∧
        ShowsBank t 0x8000 (t.cart.prgBanks - 2) ∧ ShowsBank t 0xC000 (t.cart.prgBanks - 1)) ∧
    t.video.calls =
      (if t.cart.chrBanks = 0 then [] else [.setPatternMemory 0 (t.cart.chr.take 8192)]) ++ s.video.calls

/-- R440, R446, R412: the failures of a load, in their order, and the refusal of a second one (D26, D40, the spec's own
decisions; the state the refusal leaves is log entry 18). -/
def Obligations.LoadFailsOnMalformedImages : Prop :=
  ∀ (l : Launch) (image : List Byte) (s : State),
    let h := fun k => image.getD k 0
    let prg := (h 4).toNat
    let chr := (h 5).toNat
    let id := (h 7).toNat / 16 * 16 + (h 6).toNat / 16
    (s.mapper ≠ .none → s.load l image = .refused (.alreadyLoaded s)) ∧
    (s.mapper = .none → image.length < 16 → s.load l image = .fault .imageTooShort) ∧
    (s.mapper = .none → 16 ≤ image.length →
      ((h 6).getLsbD 2 = true → s.load l image = .fault .trainer) ∧
      ((h 6).getLsbD 2 = false → prg = 0 → s.load l image = .fault .zeroPrgBanks) ∧
      ((h 6).getLsbD 2 = false → prg ≠ 0 →
        (image.length < 16 + prg * 16384 + chr * 8192 → s.load l image = .fault .imageTooShort) ∧
        (16 + prg * 16384 + chr * 8192 ≤ image.length →
          (id = 0 → 2 < prg → s.load l image = .fault .tooManyBanksForNoMapper) ∧
          (id = 1 → prg < 2 → s.load l image = .fault .tooFewBanksForMmc1) ∧
          (2 ≤ id → s.load l image = .fault .unknownMapper) ∧
          ((id = 0 ∧ prg ≤ 2) ∨ (id = 1 ∧ 2 ≤ prg) → ∃ t, s.load l image = .next t))))

/-- R44, R45, R445: a load leaves a well-formed state whose ROM window shows whole banks: the invariants the steps keep hold from the
first one on. -/
def Obligations.LoadEstablishesTheInvariants : Prop :=
  ∀ (l : Launch) (image : List Byte) (s t : State), s.load l image = .next t →
    t.Wf ∧ t.cart.Wf ∧ RomShowsBanks t
end

