-- ==== Sys2Proof/Laws/State.lean ====
section
/-! SUPPORT. One lemma per field per update of the state. -/

namespace Sys2Proof.Machine

variable (s : State)

@[simp] theorem State.setA_a (v : Byte) : (s.setA v).a = v := rfl
@[simp] theorem State.setA_x (v : Byte) : (s.setA v).x = s.x := rfl
@[simp] theorem State.setA_y (v : Byte) : (s.setA v).y = s.y := rfl
@[simp] theorem State.setA_sp (v : Byte) : (s.setA v).sp = s.sp := rfl
@[simp] theorem State.setA_pc (v : Byte) : (s.setA v).pc = s.pc := rfl
@[simp] theorem State.setA_sr (v : Byte) : (s.setA v).sr = s.sr := rfl
@[simp] theorem State.setA_mem (v : Byte) : (s.setA v).mem = s.mem := rfl
@[simp] theorem State.setA_mapper (v : Byte) : (s.setA v).mapper = s.mapper := rfl
@[simp] theorem State.setA_mmc1 (v : Byte) : (s.setA v).mmc1 = s.mmc1 := rfl
@[simp] theorem State.setA_cart (v : Byte) : (s.setA v).cart = s.cart := rfl
@[simp] theorem State.setA_icount (v : Byte) : (s.setA v).icount = s.icount := rfl
@[simp] theorem State.setA_video (v : Byte) : (s.setA v).video = s.video := rfl
@[simp] theorem State.setA_returns (v : Byte) : (s.setA v).returns = s.returns := rfl
@[simp] theorem State.setA_frameBuffer (v : Byte) : (s.setA v).frameBuffer = s.frameBuffer := rfl
@[simp] theorem State.setA_params (v : Byte) : (s.setA v).params = s.params := rfl

@[simp] theorem State.setX_a (v : Byte) : (s.setX v).a = s.a := rfl
@[simp] theorem State.setX_x (v : Byte) : (s.setX v).x = v := rfl
@[simp] theorem State.setX_y (v : Byte) : (s.setX v).y = s.y := rfl
@[simp] theorem State.setX_sp (v : Byte) : (s.setX v).sp = s.sp := rfl
@[simp] theorem State.setX_pc (v : Byte) : (s.setX v).pc = s.pc := rfl
@[simp] theorem State.setX_sr (v : Byte) : (s.setX v).sr = s.sr := rfl
@[simp] theorem State.setX_mem (v : Byte) : (s.setX v).mem = s.mem := rfl
@[simp] theorem State.setX_mapper (v : Byte) : (s.setX v).mapper = s.mapper := rfl
@[simp] theorem State.setX_mmc1 (v : Byte) : (s.setX v).mmc1 = s.mmc1 := rfl
@[simp] theorem State.setX_cart (v : Byte) : (s.setX v).cart = s.cart := rfl
@[simp] theorem State.setX_icount (v : Byte) : (s.setX v).icount = s.icount := rfl
@[simp] theorem State.setX_video (v : Byte) : (s.setX v).video = s.video := rfl
@[simp] theorem State.setX_returns (v : Byte) : (s.setX v).returns = s.returns := rfl
@[simp] theorem State.setX_frameBuffer (v : Byte) : (s.setX v).frameBuffer = s.frameBuffer := rfl
@[simp] theorem State.setX_params (v : Byte) : (s.setX v).params = s.params := rfl

@[simp] theorem State.setY_a (v : Byte) : (s.setY v).a = s.a := rfl
@[simp] theorem State.setY_x (v : Byte) : (s.setY v).x = s.x := rfl
@[simp] theorem State.setY_y (v : Byte) : (s.setY v).y = v := rfl
@[simp] theorem State.setY_sp (v : Byte) : (s.setY v).sp = s.sp := rfl
@[simp] theorem State.setY_pc (v : Byte) : (s.setY v).pc = s.pc := rfl
@[simp] theorem State.setY_sr (v : Byte) : (s.setY v).sr = s.sr := rfl
@[simp] theorem State.setY_mem (v : Byte) : (s.setY v).mem = s.mem := rfl
@[simp] theorem State.setY_mapper (v : Byte) : (s.setY v).mapper = s.mapper := rfl
@[simp] theorem State.setY_mmc1 (v : Byte) : (s.setY v).mmc1 = s.mmc1 := rfl
@[simp] theorem State.setY_cart (v : Byte) : (s.setY v).cart = s.cart := rfl
@[simp] theorem State.setY_icount (v : Byte) : (s.setY v).icount = s.icount := rfl
@[simp] theorem State.setY_video (v : Byte) : (s.setY v).video = s.video := rfl
@[simp] theorem State.setY_returns (v : Byte) : (s.setY v).returns = s.returns := rfl
@[simp] theorem State.setY_frameBuffer (v : Byte) : (s.setY v).frameBuffer = s.frameBuffer := rfl
@[simp] theorem State.setY_params (v : Byte) : (s.setY v).params = s.params := rfl

@[simp] theorem State.setSp_a (v : Byte) : (s.setSp v).a = s.a := rfl
@[simp] theorem State.setSp_x (v : Byte) : (s.setSp v).x = s.x := rfl
@[simp] theorem State.setSp_y (v : Byte) : (s.setSp v).y = s.y := rfl
@[simp] theorem State.setSp_sp (v : Byte) : (s.setSp v).sp = v := rfl
@[simp] theorem State.setSp_pc (v : Byte) : (s.setSp v).pc = s.pc := rfl
@[simp] theorem State.setSp_sr (v : Byte) : (s.setSp v).sr = s.sr := rfl
@[simp] theorem State.setSp_mem (v : Byte) : (s.setSp v).mem = s.mem := rfl
@[simp] theorem State.setSp_mapper (v : Byte) : (s.setSp v).mapper = s.mapper := rfl
@[simp] theorem State.setSp_mmc1 (v : Byte) : (s.setSp v).mmc1 = s.mmc1 := rfl
@[simp] theorem State.setSp_cart (v : Byte) : (s.setSp v).cart = s.cart := rfl
@[simp] theorem State.setSp_icount (v : Byte) : (s.setSp v).icount = s.icount := rfl
@[simp] theorem State.setSp_video (v : Byte) : (s.setSp v).video = s.video := rfl
@[simp] theorem State.setSp_returns (v : Byte) : (s.setSp v).returns = s.returns := rfl
@[simp] theorem State.setSp_frameBuffer (v : Byte) : (s.setSp v).frameBuffer = s.frameBuffer := rfl
@[simp] theorem State.setSp_params (v : Byte) : (s.setSp v).params = s.params := rfl

@[simp] theorem State.setPc_a (v : Word) : (s.setPc v).a = s.a := rfl
@[simp] theorem State.setPc_x (v : Word) : (s.setPc v).x = s.x := rfl
@[simp] theorem State.setPc_y (v : Word) : (s.setPc v).y = s.y := rfl
@[simp] theorem State.setPc_sp (v : Word) : (s.setPc v).sp = s.sp := rfl
@[simp] theorem State.setPc_pc (v : Word) : (s.setPc v).pc = v := rfl
@[simp] theorem State.setPc_sr (v : Word) : (s.setPc v).sr = s.sr := rfl
@[simp] theorem State.setPc_mem (v : Word) : (s.setPc v).mem = s.mem := rfl
@[simp] theorem State.setPc_mapper (v : Word) : (s.setPc v).mapper = s.mapper := rfl
@[simp] theorem State.setPc_mmc1 (v : Word) : (s.setPc v).mmc1 = s.mmc1 := rfl
@[simp] theorem State.setPc_cart (v : Word) : (s.setPc v).cart = s.cart := rfl
@[simp] theorem State.setPc_icount (v : Word) : (s.setPc v).icount = s.icount := rfl
@[simp] theorem State.setPc_video (v : Word) : (s.setPc v).video = s.video := rfl
@[simp] theorem State.setPc_returns (v : Word) : (s.setPc v).returns = s.returns := rfl
@[simp] theorem State.setPc_frameBuffer (v : Word) : (s.setPc v).frameBuffer = s.frameBuffer := rfl
@[simp] theorem State.setPc_params (v : Word) : (s.setPc v).params = s.params := rfl

@[simp] theorem State.setSr_a (v : Byte) : (s.setSr v).a = s.a := rfl
@[simp] theorem State.setSr_x (v : Byte) : (s.setSr v).x = s.x := rfl
@[simp] theorem State.setSr_y (v : Byte) : (s.setSr v).y = s.y := rfl
@[simp] theorem State.setSr_sp (v : Byte) : (s.setSr v).sp = s.sp := rfl
@[simp] theorem State.setSr_pc (v : Byte) : (s.setSr v).pc = s.pc := rfl
@[simp] theorem State.setSr_sr (v : Byte) : (s.setSr v).sr = v := rfl
@[simp] theorem State.setSr_mem (v : Byte) : (s.setSr v).mem = s.mem := rfl
@[simp] theorem State.setSr_mapper (v : Byte) : (s.setSr v).mapper = s.mapper := rfl
@[simp] theorem State.setSr_mmc1 (v : Byte) : (s.setSr v).mmc1 = s.mmc1 := rfl
@[simp] theorem State.setSr_cart (v : Byte) : (s.setSr v).cart = s.cart := rfl
@[simp] theorem State.setSr_icount (v : Byte) : (s.setSr v).icount = s.icount := rfl
@[simp] theorem State.setSr_video (v : Byte) : (s.setSr v).video = s.video := rfl
@[simp] theorem State.setSr_returns (v : Byte) : (s.setSr v).returns = s.returns := rfl
@[simp] theorem State.setSr_frameBuffer (v : Byte) : (s.setSr v).frameBuffer = s.frameBuffer := rfl
@[simp] theorem State.setSr_params (v : Byte) : (s.setSr v).params = s.params := rfl

@[simp] theorem State.setMem_a (v : Memory) : (s.setMem v).a = s.a := rfl
@[simp] theorem State.setMem_x (v : Memory) : (s.setMem v).x = s.x := rfl
@[simp] theorem State.setMem_y (v : Memory) : (s.setMem v).y = s.y := rfl
@[simp] theorem State.setMem_sp (v : Memory) : (s.setMem v).sp = s.sp := rfl
@[simp] theorem State.setMem_pc (v : Memory) : (s.setMem v).pc = s.pc := rfl
@[simp] theorem State.setMem_sr (v : Memory) : (s.setMem v).sr = s.sr := rfl
@[simp] theorem State.setMem_mem (v : Memory) : (s.setMem v).mem = v := rfl
@[simp] theorem State.setMem_mapper (v : Memory) : (s.setMem v).mapper = s.mapper := rfl
@[simp] theorem State.setMem_mmc1 (v : Memory) : (s.setMem v).mmc1 = s.mmc1 := rfl
@[simp] theorem State.setMem_cart (v : Memory) : (s.setMem v).cart = s.cart := rfl
@[simp] theorem State.setMem_icount (v : Memory) : (s.setMem v).icount = s.icount := rfl
@[simp] theorem State.setMem_video (v : Memory) : (s.setMem v).video = s.video := rfl
@[simp] theorem State.setMem_returns (v : Memory) : (s.setMem v).returns = s.returns := rfl
@[simp] theorem State.setMem_frameBuffer (v : Memory) : (s.setMem v).frameBuffer = s.frameBuffer := rfl
@[simp] theorem State.setMem_params (v : Memory) : (s.setMem v).params = s.params := rfl

@[simp] theorem State.setMmc1_a (v : Mmc1) : (s.setMmc1 v).a = s.a := rfl
@[simp] theorem State.setMmc1_x (v : Mmc1) : (s.setMmc1 v).x = s.x := rfl
@[simp] theorem State.setMmc1_y (v : Mmc1) : (s.setMmc1 v).y = s.y := rfl
@[simp] theorem State.setMmc1_sp (v : Mmc1) : (s.setMmc1 v).sp = s.sp := rfl
@[simp] theorem State.setMmc1_pc (v : Mmc1) : (s.setMmc1 v).pc = s.pc := rfl
@[simp] theorem State.setMmc1_sr (v : Mmc1) : (s.setMmc1 v).sr = s.sr := rfl
@[simp] theorem State.setMmc1_mem (v : Mmc1) : (s.setMmc1 v).mem = s.mem := rfl
@[simp] theorem State.setMmc1_mapper (v : Mmc1) : (s.setMmc1 v).mapper = s.mapper := rfl
@[simp] theorem State.setMmc1_mmc1 (v : Mmc1) : (s.setMmc1 v).mmc1 = v := rfl
@[simp] theorem State.setMmc1_cart (v : Mmc1) : (s.setMmc1 v).cart = s.cart := rfl
@[simp] theorem State.setMmc1_icount (v : Mmc1) : (s.setMmc1 v).icount = s.icount := rfl
@[simp] theorem State.setMmc1_video (v : Mmc1) : (s.setMmc1 v).video = s.video := rfl
@[simp] theorem State.setMmc1_returns (v : Mmc1) : (s.setMmc1 v).returns = s.returns := rfl
@[simp] theorem State.setMmc1_frameBuffer (v : Mmc1) : (s.setMmc1 v).frameBuffer = s.frameBuffer := rfl
@[simp] theorem State.setMmc1_params (v : Mmc1) : (s.setMmc1 v).params = s.params := rfl

@[simp] theorem State.setIcount_a (v : Nat) : (s.setIcount v).a = s.a := rfl
@[simp] theorem State.setIcount_x (v : Nat) : (s.setIcount v).x = s.x := rfl
@[simp] theorem State.setIcount_y (v : Nat) : (s.setIcount v).y = s.y := rfl
@[simp] theorem State.setIcount_sp (v : Nat) : (s.setIcount v).sp = s.sp := rfl
@[simp] theorem State.setIcount_pc (v : Nat) : (s.setIcount v).pc = s.pc := rfl
@[simp] theorem State.setIcount_sr (v : Nat) : (s.setIcount v).sr = s.sr := rfl
@[simp] theorem State.setIcount_mem (v : Nat) : (s.setIcount v).mem = s.mem := rfl
@[simp] theorem State.setIcount_mapper (v : Nat) : (s.setIcount v).mapper = s.mapper := rfl
@[simp] theorem State.setIcount_mmc1 (v : Nat) : (s.setIcount v).mmc1 = s.mmc1 := rfl
@[simp] theorem State.setIcount_cart (v : Nat) : (s.setIcount v).cart = s.cart := rfl
@[simp] theorem State.setIcount_icount (v : Nat) : (s.setIcount v).icount = v := rfl
@[simp] theorem State.setIcount_video (v : Nat) : (s.setIcount v).video = s.video := rfl
@[simp] theorem State.setIcount_returns (v : Nat) : (s.setIcount v).returns = s.returns := rfl
@[simp] theorem State.setIcount_frameBuffer (v : Nat) : (s.setIcount v).frameBuffer = s.frameBuffer := rfl
@[simp] theorem State.setIcount_params (v : Nat) : (s.setIcount v).params = s.params := rfl

@[simp] theorem State.setVideo_a (v : Video) : (s.setVideo v).a = s.a := rfl
@[simp] theorem State.setVideo_x (v : Video) : (s.setVideo v).x = s.x := rfl
@[simp] theorem State.setVideo_y (v : Video) : (s.setVideo v).y = s.y := rfl
@[simp] theorem State.setVideo_sp (v : Video) : (s.setVideo v).sp = s.sp := rfl
@[simp] theorem State.setVideo_pc (v : Video) : (s.setVideo v).pc = s.pc := rfl
@[simp] theorem State.setVideo_sr (v : Video) : (s.setVideo v).sr = s.sr := rfl
@[simp] theorem State.setVideo_mem (v : Video) : (s.setVideo v).mem = s.mem := rfl
@[simp] theorem State.setVideo_mapper (v : Video) : (s.setVideo v).mapper = s.mapper := rfl
@[simp] theorem State.setVideo_mmc1 (v : Video) : (s.setVideo v).mmc1 = s.mmc1 := rfl
@[simp] theorem State.setVideo_cart (v : Video) : (s.setVideo v).cart = s.cart := rfl
@[simp] theorem State.setVideo_icount (v : Video) : (s.setVideo v).icount = s.icount := rfl
@[simp] theorem State.setVideo_video (v : Video) : (s.setVideo v).video = v := rfl
@[simp] theorem State.setVideo_returns (v : Video) : (s.setVideo v).returns = s.returns := rfl
@[simp] theorem State.setVideo_frameBuffer (v : Video) : (s.setVideo v).frameBuffer = s.frameBuffer := rfl
@[simp] theorem State.setVideo_params (v : Video) : (s.setVideo v).params = s.params := rfl

@[simp] theorem State.setReturns_a (v : List Bool) : (s.setReturns v).a = s.a := rfl
@[simp] theorem State.setReturns_x (v : List Bool) : (s.setReturns v).x = s.x := rfl
@[simp] theorem State.setReturns_y (v : List Bool) : (s.setReturns v).y = s.y := rfl
@[simp] theorem State.setReturns_sp (v : List Bool) : (s.setReturns v).sp = s.sp := rfl
@[simp] theorem State.setReturns_pc (v : List Bool) : (s.setReturns v).pc = s.pc := rfl
@[simp] theorem State.setReturns_sr (v : List Bool) : (s.setReturns v).sr = s.sr := rfl
@[simp] theorem State.setReturns_mem (v : List Bool) : (s.setReturns v).mem = s.mem := rfl
@[simp] theorem State.setReturns_mapper (v : List Bool) : (s.setReturns v).mapper = s.mapper := rfl
@[simp] theorem State.setReturns_mmc1 (v : List Bool) : (s.setReturns v).mmc1 = s.mmc1 := rfl
@[simp] theorem State.setReturns_cart (v : List Bool) : (s.setReturns v).cart = s.cart := rfl
@[simp] theorem State.setReturns_icount (v : List Bool) : (s.setReturns v).icount = s.icount := rfl
@[simp] theorem State.setReturns_video (v : List Bool) : (s.setReturns v).video = s.video := rfl
@[simp] theorem State.setReturns_returns (v : List Bool) : (s.setReturns v).returns = v := rfl
@[simp] theorem State.setReturns_frameBuffer (v : List Bool) : (s.setReturns v).frameBuffer = s.frameBuffer := rfl
@[simp] theorem State.setReturns_params (v : List Bool) : (s.setReturns v).params = s.params := rfl

end Sys2Proof.Machine
end

