-- ==== Sys2Proof/Laws/Flags.lean ====
section
/-! SUPPORT. Reading a flag after a write, and that every flag computation writes SR only. -/

namespace Sys2Proof.Machine

/-- A flag reads as written, and the other flags as before. -/
@[simp] theorem srFlag_srWith (sr : Byte) (f g : Flag) (v : Bool) :
    srFlag (srWith sr f v) g = if g = f then v else srFlag sr g := by
  cases v <;> cases f <;> cases g <;> simp [srFlag, srWith, Flag.mask, Flag.bit]

/-- No flag is bit 5. -/
@[simp] theorem srWith_bit5 (sr : Byte) (f : Flag) (v : Bool) : (srWith sr f v)[5] = sr[5] := by
  cases v <;> cases f <;> simp [srWith, Flag.mask, Flag.bit]

/-- Forcing bit 5 leaves the flags alone. -/
@[simp] theorem srFlag_or_unused (sr : Byte) (f : Flag) : srFlag (sr ||| unusedMask) f = srFlag sr f := by
  cases f <;> simp [srFlag, unusedMask, Flag.bit]

theorem or_unused_bit5 (sr : Byte) : (sr ||| unusedMask).getLsbD 5 = true := by simp [unusedMask]

@[simp] theorem State.setSr_setSr (s : State) (v w : Byte) : (s.setSr v).setSr w = s.setSr w := rfl

@[simp] theorem flag_setFlag (s : State) (f g : Flag) (v : Bool) :
    (s.setFlag f v).flag g = if g = f then v else s.flag g := by
  simp [State.flag, State.setFlag]


/-! ## Each flag computation writes SR only -/

theorem State.setFlag_eq_setSr (s : State) (f : Flag) (v : Bool) : s.setFlag f v = s.setSr (s.setFlag f v).sr := rfl
theorem setNZ_eq_setSr (s : State) (v : Byte) : setNZ v s = s.setSr (setNZ v s).sr := rfl
theorem compareBytes_eq_setSr (s : State) (r m : Byte) : compareBytes r m s = s.setSr (compareBytes r m s).sr := rfl
theorem bitTest_eq_setSr (s : State) (a m : Byte) : bitTest a m s = s.setSr (bitTest a m s).sr := rfl
theorem forceUnused_eq_setSr (s : State)  : forceUnused s = s.setSr (forceUnused s).sr := rfl
theorem addBytes_eq_setSr (s : State) (a m : Byte) : (addBytes a m s).2 = s.setSr ((addBytes a m s).2).sr := rfl
theorem subBytes_eq_setSr (s : State) (a m : Byte) : (subBytes a m s).2 = s.setSr ((subBytes a m s).2).sr := rfl
theorem shiftLeft_eq_setSr (s : State) (rotate : Bool) (m : Byte) : (shiftLeft rotate m s).2 = s.setSr ((shiftLeft rotate m s).2).sr := rfl
theorem shiftRight_eq_setSr (s : State) (rotate : Bool) (m : Byte) : (shiftRight rotate m s).2 = s.setSr ((shiftRight rotate m s).2).sr := rfl

end Sys2Proof.Machine
end

