-- ==== Sys2Proof/Laws/Memory.lean ====
section
/-! SUPPORT. What reading a byte gives after a write, and that writes keep the canonical form. -/

namespace Sys2Proof.Machine

@[simp] theorem byteAt_nil (a : Nat) : Memory.byteAt [] a = unlistedByte := rfl

theorem byteAt_append_of_mem_left {m n : Memory} {a : Nat} (h : ∀ c ∈ m, c.1 ≠ a) :
    Memory.byteAt (m ++ n) a = n.byteAt a := by
  induction m with
  | nil => rfl
  | cons c m ih =>
    obtain ⟨k, v⟩ := c
    have hk : k ≠ a := h (k, v) (by simp)
    simp only [List.cons_append, Memory.byteAt, hk, if_false]
    exact ih fun d hd => h d (by simp [hd])

theorem byteAt_append_of_no_right {m n : Memory} {a : Nat} (h : ∀ c ∈ n, c.1 ≠ a) :
    Memory.byteAt (m ++ n) a = m.byteAt a := by
  induction m with
  | nil =>
    have := byteAt_append_of_mem_left (n := []) h
    simpa using this
  | cons c m ih =>
    obtain ⟨k, v⟩ := c
    simp only [List.cons_append, Memory.byteAt, ih]

/-- Filtering by a test of the address that `a` passes does not change the byte at `a`. -/
theorem byteAt_filter {m : Memory} {p : Nat → Bool} {a : Nat} (h : p a = true) :
    Memory.byteAt (m.filter fun c => p c.1) a = m.byteAt a := by
  induction m with
  | nil => rfl
  | cons c m ih =>
    obtain ⟨k, v⟩ := c
    by_cases hk : k = a
    · subst hk
      simp [h, Memory.byteAt]
    · by_cases hp : p k = true
      · simp [hp, Memory.byteAt, hk, ih]
      · simp [hp, Memory.byteAt, hk, ih]

theorem cellsFrom_range {bytes : List Byte} {base : Nat} :
    ∀ c ∈ cellsFrom base bytes, base ≤ c.1 ∧ c.1 < base + bytes.length ∧ c.2 ≠ unlistedByte := by
  induction bytes generalizing base with
  | nil => simp [cellsFrom]
  | cons v vs ih =>
    intro c hc
    unfold cellsFrom at hc
    split at hc
    · obtain ⟨h1, h2, h3⟩ := ih c hc
      simp only [List.length_cons]
      exact ⟨by omega, by omega, h3⟩
    · rcases List.mem_cons.mp hc with rfl | hc
      · simp_all
      · obtain ⟨h1, h2, h3⟩ := ih c hc
        simp only [List.length_cons]
        exact ⟨by omega, by omega, h3⟩

theorem byteAt_cellsFrom {bytes : List Byte} {base k : Nat} (h : k < bytes.length) :
    Memory.byteAt (cellsFrom base bytes) (base + k) = bytes.getD k unlistedByte := by
  induction bytes generalizing base k with
  | nil => simp at h
  | cons v vs ih =>
    cases k with
    | zero =>
      unfold cellsFrom
      split
      · rename_i hv
        have : ∀ c ∈ cellsFrom (base + 1) vs, c.1 ≠ base := fun c hc => by
          have := (cellsFrom_range c hc).1
          omega
        have := byteAt_append_of_mem_left (n := []) this
        simp_all
      · simp [Memory.byteAt]
    | succ k =>
      have hk : k < vs.length := by simpa using h
      have := ih (base := base + 1) hk
      have e : base + (k + 1) = base + 1 + k := by omega
      unfold cellsFrom
      split
      · simpa [e] using this
      · simp only [Memory.byteAt, e]
        rw [if_neg (by omega)]
        simpa using this

/-- What a block write leaves at every address. -/
theorem byteAt_putBlock (m : Memory) (base a : Nat) (bytes : List Byte) :
    (m.putBlock base bytes).byteAt a =
      if base ≤ a ∧ a < base + bytes.length then bytes.getD (a - base) unlistedByte else m.byteAt a := by
  have hlow : ∀ c ∈ m.filter (fun c => decide (c.1 < base)), c.1 < base := by simp
  have hhigh : ∀ c ∈ m.filter (fun c => decide (base + bytes.length ≤ c.1)), base + bytes.length ≤ c.1 := by
    simp
  unfold Memory.putBlock
  split
  · rename_i h
    obtain ⟨k, rfl⟩ : ∃ k, a = base + k := ⟨a - base, by omega⟩
    rw [byteAt_append_of_no_right fun c hc => by have := hhigh c hc; omega,
      byteAt_append_of_mem_left fun c hc => by have := hlow c hc; omega, byteAt_cellsFrom (by omega)]
    simp
  · rename_i h
    by_cases ha : a < base
    · rw [byteAt_append_of_no_right fun c hc => by have := hhigh c hc; omega,
        byteAt_append_of_no_right fun c hc => by have := (cellsFrom_range c hc).1; omega]
      exact byteAt_filter (p := fun k => decide (k < base)) (by simpa using ha)
    · rw [byteAt_append_of_mem_left]
      · exact byteAt_filter (p := fun k => decide (base + bytes.length ≤ k)) (by simp; omega)
      · intro c hc
        rcases List.mem_append.mp hc with hc | hc
        · have := hlow c hc
          omega
        · have := (cellsFrom_range c hc).2.1
          omega

/-- What a byte write leaves at every address. -/
theorem byteAt_put (m : Memory) (a b : Nat) (v : Byte) :
    (m.put a v).byteAt b = if b = a then v else m.byteAt b := by
  unfold Memory.put
  rw [byteAt_putBlock]
  by_cases h : b = a
  · subst h; simp
  · rw [if_neg (by simp; omega), if_neg h]

@[simp] theorem byteAt_put_self (m : Memory) (a : Nat) (v : Byte) : (m.put a v).byteAt a = v := by
  simp [byteAt_put]

theorem byteAt_put_ne {m : Memory} {a b : Nat} {v : Byte} (h : b ≠ a) : (m.put a v).byteAt b = m.byteAt b := by
  simp [byteAt_put, h]

theorem cellsFrom_pairwise (bytes : List Byte) (base : Nat) :
    (cellsFrom base bytes).Pairwise fun c d => c.1 < d.1 := by
  induction bytes generalizing base with
  | nil => simp [cellsFrom]
  | cons v vs ih =>
    unfold cellsFrom
    split
    · exact ih _
    · refine List.Pairwise.cons (fun c hc => ?_) (ih _)
      have := (cellsFrom_range c hc).1
      show base < c.1
      omega

/-- A block write inside the address space keeps the canonical form. -/
theorem putBlock_wf {m : Memory} {base : Nat} {bytes : List Byte} (h : m.wf) (hb : base + bytes.length ≤ 65536) :
    (m.putBlock base bytes).wf := by
  obtain ⟨hs, hc⟩ := h
  refine ⟨?_, ?_⟩
  · unfold Memory.putBlock
    rw [List.pairwise_append, List.pairwise_append]
    refine ⟨⟨hs.filter _, cellsFrom_pairwise _ _, ?_⟩, hs.filter _, ?_⟩
    · intro c hc d hd
      have := (cellsFrom_range d hd).1
      simp only [List.mem_filter, decide_eq_true_eq] at hc
      omega
    · intro c hc d hd
      simp only [List.mem_append, List.mem_filter, decide_eq_true_eq] at hc hd
      rcases hc with hc | hc
      · omega
      · have := (cellsFrom_range c hc).2.1
        omega
  · intro c hm
    simp only [Memory.putBlock, List.mem_append, List.mem_filter] at hm
    rcases hm with (hm | hm) | hm
    · exact hc c hm.1
    · have := cellsFrom_range c hm
      exact ⟨by omega, this.2.2⟩
    · exact hc c hm.1

/-- A byte write inside the address space keeps the canonical form. -/
theorem put_wf {m : Memory} {a : Nat} {v : Byte} (h : m.wf) (ha : a < 65536) : (m.put a v).wf :=
  putBlock_wf h (by simpa using ha)

/-- The empty memory is in canonical form. -/
theorem nil_wf : Memory.wf [] := ⟨List.Pairwise.nil, by simp⟩

@[simp] theorem block_length (m : Memory) (base n : Nat) : (m.block base n).length = n := by simp [Memory.block]

theorem block_getElem? (m : Memory) {base n k : Nat} (h : k < n) : (m.block base n)[k]? = some (m.byteAt (base + k)) := by
  simp [Memory.block, h]

end Sys2Proof.Machine
end

