-- ==== Sys2Proof/Laws/Words.lean ====
section
/-! SUPPORT. Words as two bytes. -/

namespace Sys2Proof

theorem mkWord_toNat (h l : Byte) : (mkWord h l).toNat = h.toNat * 256 + l.toNat := by
  unfold mkWord
  rw [BitVec.toNat_append, Nat.shiftLeft_eq, ← Nat.shiftLeft_eq, Nat.shiftLeft_add_eq_or_of_lt (by omega)]

theorem loByte_toNat (a : Word) : (loByte a).toNat = a.toNat % 256 := by
  simp [loByte, BitVec.extractLsb'_toNat]

theorem hiByte_toNat (a : Word) : (hiByte a).toNat = a.toNat / 256 := by
  simp [hiByte, BitVec.extractLsb'_toNat, Nat.shiftRight_eq_div_pow]
  omega

@[simp] theorem loByte_mkWord (h l : Byte) : loByte (mkWord h l) = l := by
  apply BitVec.eq_of_toNat_eq
  rw [loByte_toNat, mkWord_toNat]
  omega

@[simp] theorem hiByte_mkWord (h l : Byte) : hiByte (mkWord h l) = h := by
  apply BitVec.eq_of_toNat_eq
  rw [hiByte_toNat, mkWord_toNat]
  omega

@[simp] theorem mkWord_hi_lo (a : Word) : mkWord (hiByte a) (loByte a) = a := by
  apply BitVec.eq_of_toNat_eq
  rw [mkWord_toNat, hiByte_toNat, loByte_toNat]
  omega

theorem mkWord_getLsbD (h l : Byte) (i : Nat) :
    (mkWord h l).getLsbD i = if i < 8 then l.getLsbD i else h.getLsbD (i - 8) := by
  unfold mkWord
  exact BitVec.getLsbD_append.trans (by cases decide (i < 8) <;> simp_all)

/-- The start of an address's page. -/
theorem and_pageMask (a : Word) : a &&& 0xFF00 = mkWord (hiByte a) 0 := by
  apply BitVec.eq_of_getLsbD_eq
  intro i hi
  rw [mkWord_getLsbD]
  interval_cases i <;> simp [hiByte]

/-- The displacement of a byte lies in its range, and its byte is that byte. -/
theorem dispByte_dispOf (b : Byte) : dispByte (dispOf b) = b := by simp [dispByte, dispOf]

theorem dispOf_range (b : Byte) : -128 ≤ dispOf b ∧ dispOf b ≤ 127 := by
  have := b.le_toInt
  have := b.toInt_lt
  simp only [dispOf]
  omega

theorem dispOf_dispByte {d : Int} (h : -128 ≤ d) (h' : d ≤ 127) : dispOf (dispByte d) = d := by
  simp only [dispOf, dispByte, BitVec.toInt_ofInt]
  rw [Int.bmod_eq_of_le] <;> omega

end Sys2Proof
end

