-- ==== Sys2Proof/Laws/Bus.lean ====
section
/-! SUPPORT. The bus and the operands: what a read, a write, a push and a pull can do, and that they commute with the update of a
register. -/

namespace Sys2Proof.Machine

/-! ## The video window -/

theorem videoRegAt_eq_none {a : Word} : videoRegAt a = none ↔ Fetchable a := by
  unfold videoRegAt Fetchable
  split
  · rename_i h
    simp only [videoRegs, List.getElem?_eq_none_iff, List.length_cons, List.length_nil]
    omega
  · rename_i h
    simp [h]

theorem videoRegAt_eq_some {a : Word} (h : ¬Fetchable a) :
    ∃ r, videoRegAt a = some r ∧ videoRegs[a.toNat - 0x2000]? = some r := by
  obtain ⟨r, hr⟩ := Option.ne_none_iff_exists'.mp (mt videoRegAt_eq_none.mp h)
  refine ⟨r, hr, ?_⟩
  unfold videoRegAt at hr
  split at hr
  · exact hr
  · cases hr

@[simp] theorem isSome_videoRegAt {a : Word} : (videoRegAt a).isSome = true ↔ ¬Fetchable a := by
  rw [← videoRegAt_eq_none, Option.isSome_iff_ne_none]

/-- An address with a small high byte lies below the window. -/
theorem fetchable_of_lt {a : Word} (h : a.toNat < 0x2000) : Fetchable a := by unfold Fetchable; omega

theorem stackAddr_toNat (sp : Byte) : (stackAddr sp).toNat = 0x0100 + sp.toNat := by
  simp [stackAddr, mkWord_toNat]

theorem zeroPage_toNat (z : Byte) : (zeroPage z).toNat = z.toNat := by
  simp [zeroPage, mkWord_toNat]

theorem stackAddr_fetchable (sp : Byte) : Fetchable (stackAddr sp) :=
  fetchable_of_lt (by rw [stackAddr_toNat]; omega)

theorem zeroPage_fetchable (z : Byte) : Fetchable (zeroPage z) :=
  fetchable_of_lt (by rw [zeroPage_toNat]; omega)

/-! ## Updates of a register

A register update is one that keeps memory, the mapper and the video unit, and commutes with the writes of those. Everything the
bus does commutes with it. -/

/-- What makes `g` an update of registers only. -/
structure RegUpdate (g : State → State) : Prop where
  mem : ∀ s, (g s).mem = s.mem
  video : ∀ s, (g s).video = s.video
  mmc1 : ∀ s, (g s).mmc1 = s.mmc1
  mapper : ∀ s, (g s).mapper = s.mapper
  cart : ∀ s, (g s).cart = s.cart
  setMem : ∀ s v, (g s).setMem v = g (s.setMem v)
  setVideo : ∀ s v, (g s).setVideo v = g (s.setVideo v)
  setMmc1 : ∀ s v, (g s).setMmc1 v = g (s.setMmc1 v)

theorem regUpdate_id : RegUpdate id := by constructor <;> intros <;> rfl
theorem regUpdate_setA (v : Byte) : RegUpdate (·.setA v) := by constructor <;> intros <;> rfl
theorem regUpdate_setX (v : Byte) : RegUpdate (·.setX v) := by constructor <;> intros <;> rfl
theorem regUpdate_setY (v : Byte) : RegUpdate (·.setY v) := by constructor <;> intros <;> rfl
theorem regUpdate_setSp (v : Byte) : RegUpdate (·.setSp v) := by constructor <;> intros <;> rfl
theorem regUpdate_setPc (v : Word) : RegUpdate (·.setPc v) := by constructor <;> intros <;> rfl
theorem regUpdate_setSr (v : Byte) : RegUpdate (·.setSr v) := by constructor <;> intros <;> rfl
theorem RegUpdate.comp {g h : State → State} (hg : RegUpdate g) (hh : RegUpdate h) : RegUpdate (g ∘ h) := by
  constructor <;> intros <;>
    simp [hg.mem, hg.video, hg.mmc1, hg.mapper, hg.cart, hh.mem, hh.video, hh.mmc1, hh.mapper, hh.cart, hg.setMem, hh.setMem,
      hg.setVideo, hh.setVideo, hg.setMmc1, hh.setMmc1]

/-- A fault with the state it left updated. -/
def Fault.mapLeft (g : State → State) : Fault → Fault
  | .fetchFromMMIO a left => .fetchFromMMIO a (g left)
  | .mapperBankOutOfRange r b left => .mapperBankOutOfRange r b (g left)

/-- An outcome with its state updated, the one it goes on in or the one a fault left. -/
def mapResult (g : State → State) : Result → Result
  | .next s => .next (g s)
  | .fault f => .fault (f.mapLeft g)
  | .refused r => .refused r

variable {g : State → State}

theorem busRead_regUpdate (hg : RegUpdate g) (a : Word) (s : State) :
    busRead a (g s) = ((busRead a s).1, g (busRead a s).2) := by
  unfold busRead
  split <;> simp [videoRead, videoAccess, hg.video, hg.mem, hg.setVideo]

theorem read16_regUpdate (hg : RegUpdate g) (a : Word) (s : State) :
    read16 a (g s) = ((read16 a s).1, g (read16 a s).2) := by
  simp [read16, busRead_regUpdate hg]

theorem copyPrg_regUpdate (hg : RegUpdate g) (b dst : Nat) (s : State) : copyPrg b dst (g s) = g (copyPrg b dst s) := by
  simp [copyPrg, hg.mem, hg.cart, hg.setMem]

theorem copyChr_regUpdate (hg : RegUpdate g) (r : MapperReg) (u k off : Nat) (s : State) :
    copyChr r u k off (g s) = mapResult g (copyChr r u k off s) := by
  unfold copyChr
  simp only [hg.cart]
  split <;> simp [mapResult, Fault.mapLeft, videoCall, hg.video, hg.setVideo]

theorem commitEffect_regUpdate (hg : RegUpdate g) (r : MapperReg) (s : State) :
    commitEffect r (g s) = mapResult g (commitEffect r s) := by
  cases r
  · rfl
  · simp only [commitEffect, chr0Commit, hg.cart, hg.mmc1, copyChr_regUpdate hg]
    split
    · rfl
    · split <;> rfl
  · simp only [commitEffect, chr1Commit, hg.cart, hg.mmc1, copyChr_regUpdate hg]
    split
    · rfl
    · split <;> rfl
  · simp only [commitEffect, prgCommit, hg.cart, hg.mmc1, copyPrg_regUpdate hg]
    split
    · rfl
    · split <;> rfl

theorem mapperWrite_regUpdate (hg : RegUpdate g) (a : Word) (v : Byte) (s : State) :
    mapperWrite a v (g s) = mapResult g (mapperWrite a v s) := by
  unfold mapperWrite
  simp only [hg.mapper]
  split
  · rfl
  · rfl
  · unfold mmc1Write
    split
    · simp [mmc1Reset, hg.mmc1, hg.setMmc1, mapResult]
    · unfold mmc1ShiftIn
      simp only [hg.mmc1, hg.setMmc1, commitEffect_regUpdate hg]
      split <;> rfl

theorem busWrite_regUpdate (hg : RegUpdate g) (a : Word) (v : Byte) (s : State) :
    busWrite a v (g s) = mapResult g (busWrite a v s) := by
  unfold busWrite
  split
  · simp [videoWrite, videoAccess, hg.video, hg.setVideo, mapResult]
  · simp only [mapperWrite_regUpdate hg, hg.mem, hg.setMem, spriteDma, videoCall, hg.video, hg.setVideo]
    split
    · rfl
    · split <;> rfl

/-! ## What a read can do -/

/-- A read outside the window is the byte of the flat array, and changes nothing. -/
theorem busRead_of_fetchable {a : Word} (h : Fetchable a) (s : State) : busRead a s = (s.mem.byteAt a.toNat, s) := by
  simp [busRead, videoRegAt_eq_none.mpr h]

/-- A read changes the video unit only. -/
theorem busRead_state (a : Word) (s : State) : (busRead a s).2 = s.setVideo (busRead a s).2.video := by
  unfold busRead
  split <;> rfl

theorem read16_state (a : Word) (s : State) : (read16 a s).2 = s.setVideo (read16 a s).2.video := by
  unfold read16
  simp only
  rw [busRead_state, busRead_state a s]
  rfl

/-- R87: the high byte comes from the next address, within the page. -/
theorem nextInPage_toNat (a : Word) :
    (nextInPage a).toNat = if a.toNat % 256 = 255 then a.toNat - 255 else a.toNat + 1 := by
  have h : loByte a = 0xFF ↔ a.toNat % 256 = 255 := by
    rw [← BitVec.toNat_inj, loByte_toNat]
    rfl
  unfold nextInPage
  split
  · rename_i e
    rw [if_pos (h.mp e), and_pageMask, mkWord_toNat, hiByte_toNat]
    have := h.mp e
    have : (0 : Byte).toNat = 0 := rfl
    omega
  · rename_i e
    have e' : ¬a.toNat % 256 = 255 := fun c => e (h.mpr c)
    rw [if_neg e', BitVec.toNat_add]
    have : (1 : Word).toNat = 1 := rfl
    omega

theorem read16_of_fetchable {a : Word} (h : Fetchable a) (h' : Fetchable (nextInPage a)) (s : State) :
    read16 a s = (mkWord (s.mem.byteAt (nextInPage a).toNat) (s.mem.byteAt a.toNat), s) := by
  simp [read16, busRead_of_fetchable h, busRead_of_fetchable h']

/-- The zero-page wrap (R87): a pointer in the zero page stays there. -/
theorem nextInPage_zeroPage (z : Byte) : Fetchable (nextInPage (zeroPage z)) := by
  refine fetchable_of_lt ?_
  rw [nextInPage_toNat, zeroPage_toNat]
  split <;> omega

/-- The vectors lie in the ROM window. -/
theorem read16_of_high {a : Word} (h : 0x8000 ≤ a.toNat) (s : State) :
    read16 a s = (mkWord (s.mem.byteAt (nextInPage a).toNat) (s.mem.byteAt a.toNat), s) := by
  have h' : 0x8000 ≤ (nextInPage a).toNat := by
    rw [nextInPage_toNat]
    split <;> omega
  exact read16_of_fetchable (by unfold Fetchable; omega) (by unfold Fetchable; omega) s

/-! ## Operands -/

/-- The pointers lie in the zero page, so that finding an address changes nothing. -/
theorem effectiveAddress_state (m : MemMode) (s : State) : (effectiveAddress m s).2 = s := by
  cases m <;> simp [effectiveAddress, read16_of_fetchable (zeroPage_fetchable _) (nextInPage_zeroPage _)]

theorem effectiveAddress_eq (m : MemMode) (s : State) : effectiveAddress m s = (addressOf m s, s) :=
  Prod.ext rfl (effectiveAddress_state m s)

/-- An address looks at memory, X and Y only. -/
theorem addressOf_congr {m : MemMode} {s t : State} (hm : t.mem = s.mem) (hx : t.x = s.x) (hy : t.y = s.y) :
    addressOf m t = addressOf m s := by
  cases m <;>
    simp [addressOf, effectiveAddress, read16_of_fetchable (zeroPage_fetchable _) (nextInPage_zeroPage _), hm, hx, hy]

@[simp] theorem addressOf_setPc (m : MemMode) (s : State) (pc : Word) : addressOf m (s.setPc pc) = addressOf m s :=
  addressOf_congr rfl rfl rfl

@[simp] theorem readSource_imm (v : Byte) (s : State) : readSource (.imm v) s = (v, s) := rfl

theorem readSource_mem (m : MemMode) (s : State) : readSource (.mem m) s = busRead (addressOf m s) s := by
  simp [readSource, effectiveAddress_eq]

theorem readSource_state (o : Source) (s : State) : (readSource o s).2 = s.setVideo (readSource o s).2.video := by
  cases o with
  | imm v => rfl
  | mem m => rw [readSource_mem]; exact busRead_state _ _

theorem readSource_a (o : Source) (s : State) : (readSource o s).2.a = s.a := by rw [readSource_state]; rfl
theorem readSource_x (o : Source) (s : State) : (readSource o s).2.x = s.x := by rw [readSource_state]; rfl
theorem readSource_y (o : Source) (s : State) : (readSource o s).2.y = s.y := by rw [readSource_state]; rfl
theorem readSource_sr (o : Source) (s : State) : (readSource o s).2.sr = s.sr := by rw [readSource_state]; rfl
theorem busRead_a (a : Word) (s : State) : (busRead a s).2.a = s.a := by rw [busRead_state]; rfl
theorem busRead_sr (a : Word) (s : State) : (busRead a s).2.sr = s.sr := by rw [busRead_state]; rfl

@[simp] theorem readSource_setPc (o : Source) (s : State) (pc : Word) :
    readSource o (s.setPc pc) = ((readSource o s).1, (readSource o s).2.setPc pc) := by
  cases o with
  | imm v => rfl
  | mem m => simp only [readSource_mem, addressOf_setPc, busRead_regUpdate (regUpdate_setPc pc)]

theorem storeByte_eq (m : MemMode) (value : State → Byte) (s : State) :
    storeByte m value s = busWrite (addressOf m s) (value s) s := by
  simp [storeByte, effectiveAddress_eq]

theorem modify_eq (m : MemMode) (f : Byte → State → Byte × State) (s : State) :
    modify m f s =
      andThen (busWrite (addressOf m s) (f (busRead (addressOf m s) s).1 (busRead (addressOf m s) s).2).1
        (f (busRead (addressOf m s) s).1 (busRead (addressOf m s) s).2).2) fun t =>
          .next ((f (busRead (addressOf m s) s).1 (busRead (addressOf m s) s).2).1, t) := by
  simp [modify, effectiveAddress_eq]

/-! ## The stack -/

theorem pull_eq (s : State) : pull s = (s.mem.byteAt (0x0100 + (s.sp + 1).toNat), s.setSp (s.sp + 1)) := by
  simp [pull, busRead_of_fetchable (stackAddr_fetchable _), stackAddr_toNat]

theorem push_eq (v : Byte) (s : State) :
    push v s = (s.setMem (s.mem.put (0x0100 + s.sp.toNat) v)).setSp (s.sp - 1) := by
  simp [push, stackAddr_toNat]

theorem word_ne_of_toNat {a : Word} {n : Nat} (h : a.toNat ≠ n) : a ≠ BitVec.ofNat 16 n ∨ 65536 ≤ n := by
  by_cases hn : 65536 ≤ n
  · exact .inr hn
  · refine .inl fun e => h ?_
    subst e
    exact Nat.mod_eq_of_lt (by omega)

theorem word_msb (a : Word) : a.msb = decide (0x8000 ≤ a.toNat) := by
  rw [BitVec.msb_eq_decide]

theorem byte_msb (a : Byte) : a.msb = decide (0x80 ≤ a.toNat) := by
  rw [BitVec.msb_eq_decide]

/-- A write to RAM: a write of the flat array (R85). -/
theorem busWrite_ram {a : Word} (h : Fetchable a) (hl : a.toNat < 0x8000) (hd : a ≠ 0x4014) (v : Byte) (s : State) :
    busWrite a v s = .next (s.setMem (s.mem.put a.toNat v)) := by
  rw [busWrite, videoRegAt_eq_none.mpr h]
  simp only [if_neg hd]
  rw [if_neg (by simp [word_msb, hl])]

/-- A write to the ROM window is the mapper's (R84). -/
theorem busWrite_rom {a : Word} (h : 0x8000 ≤ a.toNat) (v : Byte) (s : State) : busWrite a v s = mapperWrite a v s := by
  have hf : Fetchable a := by unfold Fetchable; omega
  have hd : a ≠ 0x4014 := by
    rintro rfl
    revert h
    decide
  rw [busWrite, videoRegAt_eq_none.mpr hf]
  simp only [if_neg hd]
  rw [if_pos (by simp [word_msb, h])]

/-- R89: the write of a push, through the bus. -/
theorem busWrite_stack (v : Byte) (s : State) :
    busWrite (stackAddr s.sp) v s = .next (s.setMem (s.mem.put (stackAddr s.sp).toNat v)) := by
  have := stackAddr_toNat s.sp
  refine busWrite_ram (stackAddr_fetchable _) (by omega) ?_ v s
  intro e
  rw [e] at this
  have : (0x4014 : Word).toNat = 0x4014 := rfl
  omega

/-- A push is a bus write and the decrement of SP. -/
theorem push_next {v : Byte} {s : State} :
    ∃ t, busWrite (stackAddr s.sp) v s = .next t ∧ push v s = t.setSp (s.sp - 1) :=
  ⟨_, busWrite_stack v s, rfl⟩

/-! ## What a write can do -/

/-- The MMC1 state after a write to the ROM window: only the selected register changed, and its counter stays below 5. -/
def Mmc1StepsTo (r : MapperReg) (old new : Mmc1) : Prop :=
  (∀ r', r' ≠ r → new.reg r' = old.reg r') ∧ ((old.reg r).count < 5 → (new.reg r).count < 5)

@[simp] theorem reg_setReg_self (m : Mmc1) (r : MapperReg) (v : Mmc1Reg) : (m.setReg r v).reg r = v := by cases r <;> rfl

@[simp] theorem setReg_setReg (m : Mmc1) (r : MapperReg) (v w : Mmc1Reg) : (m.setReg r v).setReg r w = m.setReg r w := by
  cases r <;> rfl

theorem reg_setReg (m : Mmc1) (r r' : MapperReg) (v : Mmc1Reg) :
    (m.setReg r v).reg r' = if r' = r then v else m.reg r' := by
  cases r <;> cases r' <;> rfl

theorem mmc1StepsTo_setReg {r : MapperReg} {m : Mmc1} {v : Mmc1Reg} (h : (m.reg r).count < 5 → v.count < 5) :
    Mmc1StepsTo r m (m.setReg r v) :=
  ⟨fun r' hr => by simp [reg_setReg, hr], fun hc => by simpa [reg_setReg] using h hc⟩

/-- Everything a commit can do when it completes. -/
theorem commitEffect_next {r : MapperReg} {s t : State} (h : commitEffect r s = .next t) :
    (∃ w, t = s.setVideo w) ∨
      r = .prgBank ∧ ∃ low high, low < s.cart.prgBanks ∧ high < s.cart.prgBanks ∧
        t = copyPrg high 0xC000 (copyPrg low 0x8000 s) := by
  have chr : ∀ r u k off, copyChr r u k off s = .next t → ∃ w, t = s.setVideo w := by
    intro r u k off h
    unfold copyChr at h
    split at h
    · cases h
    · cases h
      exact ⟨_, rfl⟩
  cases r
  · cases h
    exact .inl ⟨s.video, rfl⟩
  · left
    simp only [commitEffect, chr0Commit] at h
    split at h
    · cases h
      exact ⟨s.video, rfl⟩
    · split at h <;> exact chr _ _ _ _ h
  · left
    simp only [commitEffect, chr1Commit] at h
    split at h
    · cases h
      exact ⟨s.video, rfl⟩
    · split at h
      · exact chr _ _ _ _ h
      · cases h
        exact ⟨s.video, rfl⟩
  · right
    simp only [commitEffect, prgCommit] at h
    split at h
    · cases h
    · split at h
      · cases h
      · cases h
        exact ⟨rfl, _, _, by omega, by omega, rfl⟩

/-- Everything a bus write can do when it completes: a call to the video unit, a byte of RAM, or, with an MMC1, a serial write
and its side effect. -/
theorem busWrite_next {a : Word} {v : Byte} {s t : State} (h : busWrite a v s = .next t) :
    ((¬Fetchable a ∨ a = 0x4014) ∧ ∃ w, t = s.setVideo w) ∨
    (Fetchable a ∧ a.toNat < 0x8000 ∧ a ≠ 0x4014 ∧ t = s.setMem (s.mem.put a.toNat v)) ∨
    (0x8000 ≤ a.toNat ∧ s.mapper ≠ .mmc1 ∧ t = s) ∨
    (0x8000 ≤ a.toNat ∧ s.mapper = .mmc1 ∧ ∃ m, Mmc1StepsTo (mapperRegAt a) s.mmc1 m ∧
      ((∃ w, t = (s.setMmc1 m).setVideo w) ∨
        ∃ low high, low < s.cart.prgBanks ∧ high < s.cart.prgBanks ∧
          t = copyPrg high 0xC000 (copyPrg low 0x8000 (s.setMmc1 m)))) := by
  by_cases hf : Fetchable a
  · by_cases hd : a = 0x4014
    · left
      subst hd
      rw [busWrite, videoRegAt_eq_none.mpr hf] at h
      cases h
      exact ⟨.inr rfl, _, rfl⟩
    · by_cases hl : a.toNat < 0x8000
      · right; left
        rw [busWrite_ram hf hl hd] at h
        cases h
        exact ⟨hf, hl, hd, rfl⟩
      · right; right
        have hl : 0x8000 ≤ a.toNat := by omega
        rw [busWrite_rom hl, mapperWrite] at h
        split at h
        · rename_i e
          cases h
          exact .inl ⟨hl, by simp [e], rfl⟩
        · rename_i e
          cases h
          exact .inl ⟨hl, by simp [e], rfl⟩
        · rename_i e
          refine .inr ⟨hl, e, ?_⟩
          unfold mmc1Write at h
          split at h
          · cases h
            exact ⟨_, mmc1StepsTo_setReg fun _ => by simp, .inl ⟨s.video, rfl⟩⟩
          · unfold mmc1ShiftIn at h
            simp only at h
            split at h
            · obtain h | ⟨-, h⟩ := commitEffect_next h
              · exact ⟨_, mmc1StepsTo_setReg fun _ => by simp, .inl h⟩
              · exact ⟨_, mmc1StepsTo_setReg fun _ => by simp, .inr h⟩
            · cases h
              exact ⟨_, mmc1StepsTo_setReg fun hc => by simp only; omega, .inl ⟨s.video, rfl⟩⟩
  · left
    obtain ⟨r, hr, -⟩ := videoRegAt_eq_some hf
    rw [busWrite, hr] at h
    cases h
    exact ⟨.inl hf, _, rfl⟩

theorem copyChr_not_refused (r : MapperReg) (u k off : Nat) (s : State) (q : Refusal) : copyChr r u k off s ≠ .refused q := by
  unfold copyChr
  split <;> simp

theorem commitEffect_not_refused (r : MapperReg) (s : State) (q : Refusal) : commitEffect r s ≠ .refused q := by
  cases r
  · simp [commitEffect]
  · simp only [commitEffect, chr0Commit]
    split
    · simp
    · split <;> exact copyChr_not_refused _ _ _ _ _ _
  · simp only [commitEffect, chr1Commit]
    split
    · simp
    · split
      · exact copyChr_not_refused _ _ _ _ _ _
      · simp
  · simp only [commitEffect, prgCommit]
    split
    · simp
    · split <;> simp

/-- A bus write is never refused. -/
theorem busWrite_not_refused (a : Word) (v : Byte) (s : State) (q : Refusal) : busWrite a v s ≠ .refused q := by
  unfold busWrite
  split
  · simp
  · split
    · simp
    · split
      · unfold mapperWrite
        split
        · simp
        · simp
        · unfold mmc1Write
          split
          · simp
          · unfold mmc1ShiftIn
            simp only
            split
            · exact commitEffect_not_refused _ _ _
            · simp
      · simp

/-- A bus write changes memory, the MMC1 state and the video unit only. -/
theorem busWrite_frame {a : Word} {v : Byte} {s t : State} (h : busWrite a v s = .next t) :
    t = ((s.setMem t.mem).setMmc1 t.mmc1).setVideo t.video := by
  rcases busWrite_next h with ⟨-, w, rfl⟩ | ⟨-, -, -, rfl⟩ | ⟨-, -, rfl⟩ | ⟨-, -, m, -, ⟨w, rfl⟩ | ⟨_, _, -, -, rfl⟩⟩ <;> rfl

/-! ## When a write completes -/

theorem prgCommit_completes {s : State} :
    (∃ t, prgCommit s = .next t) ↔
      (prgBanksFor (prgMode s.mmc1) s.mmc1.prgBank.value s.cart.prgBanks).1 < s.cart.prgBanks ∧
        (prgBanksFor (prgMode s.mmc1) s.mmc1.prgBank.value s.cart.prgBanks).2 < s.cart.prgBanks := by
  unfold prgCommit
  simp only
  split
  · simp; omega
  · split
    · simp; omega
    · simp; omega

theorem copyChr_completes {r : MapperReg} {u k off : Nat} {s : State} :
    (∃ t, copyChr r u k off s = .next t) ↔ u + k ≤ s.cart.chrBanks * 2 := by
  unfold copyChr
  split <;> simp <;> omega

end Sys2Proof.Machine
end

