-- ==== Sys2Proof/Laws/Decode.lean ====
section
/-! SUPPORT. What the opcode map says of each opcode byte, whatever operand bytes follow. -/

namespace Sys2Proof

/-- A property of every byte, shown for the 256 numerals. -/
theorem forall_byte {Q : Byte → Prop} (h : ∀ n, n < 256 → Q (BitVec.ofNat 8 n)) (b : Byte) : Q b := by
  have := h b.toNat b.isLt
  rwa [BitVec.ofNat_toNat, BitVec.setWidth_eq] at this

/-- The row of an opcode byte: one mnemonic, one length, its own opcode, its operand bytes. -/
theorem shapeOf_instr (op b1 b2 : Byte) :
    ((shapeOf op).instr b1 b2).mnemonic = (shapeOf op).mnemonic ∧
    ((shapeOf op).instr b1 b2).length = (shapeOf op).operandBytes + 1 ∧
    ((shapeOf op).instr b1 b2).opcode = op := by
  revert op
  refine forall_byte ?_
  intro n hn
  interval_cases n <;> exact ⟨rfl, rfl, rfl⟩

theorem operandBytes_le (op : Byte) : (shapeOf op).operandBytes ≤ 2 := by
  cases shapeOf op <;> simp [Shape.operandBytes]

/-- The shapes whose instructions give back the operand bytes they were made of. -/
def Shape.Faithful (sh : Shape) : Prop :=
  ∀ b1 b2, (sh.instr b1 b2).wellFormed = true ∧ (sh.instr b1 b2).operand.bytes = [b1, b2].take sh.operandBytes

theorem faithful_fixed (i : Instr) (h : i.wellFormed = true) (h' : i.operand.bytes = []) : (Shape.fixed i).Faithful :=
  fun _ _ => ⟨h, h'⟩

theorem faithful_byte (f : Byte → Instr) (h : ∀ b, (f b).wellFormed = true ∧ (f b).operand.bytes = [b]) :
    (Shape.byte f).Faithful :=
  fun b _ => h b

theorem faithful_disp (f : Int → Instr) (h : ∀ d, (f d).operand = .rel d) : (Shape.disp f).Faithful := by
  intro b _
  have := dispOf_range b
  simp [Shape.instr, Instr.wellFormed, Operand.wellFormed, h, Operand.bytes, dispByte_dispOf, this, Shape.operandBytes]

theorem faithful_word (f : Word → Instr) (h : ∀ a, (f a).wellFormed = true ∧ (f a).operand.bytes = [loByte a, hiByte a]) :
    (Shape.word f).Faithful := by
  intro b1 b2
  have := h (mkWord b2 b1)
  simpa [Shape.instr, Shape.operandBytes] using this

theorem faithful_from0 (n : Nat) (h : 0 ≤ n) (h' : n < 64) : (shapeOf (BitVec.ofNat 8 n)).Faithful := by
  interval_cases n <;>
    first
    | exact faithful_byte _ fun _ => ⟨rfl, rfl⟩
    | exact faithful_word _ fun _ => ⟨rfl, rfl⟩
    | exact faithful_fixed _ rfl rfl
    | exact faithful_disp _ fun _ => rfl

theorem faithful_from64 (n : Nat) (h : 64 ≤ n) (h' : n < 128) : (shapeOf (BitVec.ofNat 8 n)).Faithful := by
  interval_cases n <;>
    first
    | exact faithful_byte _ fun _ => ⟨rfl, rfl⟩
    | exact faithful_word _ fun _ => ⟨rfl, rfl⟩
    | exact faithful_fixed _ rfl rfl
    | exact faithful_disp _ fun _ => rfl

theorem faithful_from128 (n : Nat) (h : 128 ≤ n) (h' : n < 192) : (shapeOf (BitVec.ofNat 8 n)).Faithful := by
  interval_cases n <;>
    first
    | exact faithful_byte _ fun _ => ⟨rfl, rfl⟩
    | exact faithful_word _ fun _ => ⟨rfl, rfl⟩
    | exact faithful_fixed _ rfl rfl
    | exact faithful_disp _ fun _ => rfl

theorem faithful_from192 (n : Nat) (h : 192 ≤ n) (h' : n < 256) : (shapeOf (BitVec.ofNat 8 n)).Faithful := by
  interval_cases n <;>
    first
    | exact faithful_byte _ fun _ => ⟨rfl, rfl⟩
    | exact faithful_word _ fun _ => ⟨rfl, rfl⟩
    | exact faithful_fixed _ rfl rfl
    | exact faithful_disp _ fun _ => rfl

theorem shapeOf_faithful : ∀ op, (shapeOf op).Faithful := by
  refine forall_byte fun n h => ?_
  by_cases h1 : n < 64
  · exact faithful_from0 n (by omega) h1
  · by_cases h2 : n < 128
    · exact faithful_from64 n (by omega) h2
    · by_cases h3 : n < 192
      · exact faithful_from128 n (by omega) h3
      · exact faithful_from192 n (by omega) h

/-- What the decoder can answer: the instruction of the opcode's row and the rest of the bytes. -/
theorem decode_ok {bytes rest : List Byte} {i : Instr} (h : decode bytes = .ok (i, rest)) :
    ∃ op b1 b2, i = (shapeOf op).instr b1 b2 ∧ bytes = op :: ([b1, b2].take (shapeOf op).operandBytes ++ rest) := by
  unfold decode at h
  split at h
  · cases h
  · rename_i op tail
    split at h
    · rename_i e
      simp only [Except.ok.injEq, Prod.mk.injEq] at h
      obtain ⟨rfl, rfl⟩ := h
      exact ⟨op, 0, 0, rfl, by simp [e]⟩
    · rename_i b1 tail e
      simp only [Except.ok.injEq, Prod.mk.injEq] at h
      obtain ⟨rfl, rfl⟩ := h
      exact ⟨op, b1, 0, rfl, by simp [e]⟩
    · rename_i b1 b2 tail e
      simp only [Except.ok.injEq, Prod.mk.injEq] at h
      obtain ⟨rfl, rfl⟩ := h
      exact ⟨op, b1, b2, rfl, by simp [e]⟩
    · cases h

/-- The decoder on enough bytes. -/
theorem decode_cons (op b1 b2 : Byte) (rest : List Byte) :
    ∃ c1 c2, decode (op :: b1 :: b2 :: rest) =
        .ok ((shapeOf op).instr c1 c2, (b1 :: b2 :: rest).drop (shapeOf op).operandBytes) ∧
      (1 ≤ (shapeOf op).operandBytes → c1 = b1) ∧ (2 ≤ (shapeOf op).operandBytes → c2 = b2) := by
  have := operandBytes_le op
  unfold decode
  simp only
  generalize (shapeOf op).operandBytes = n at this
  interval_cases n
  · exact ⟨0, 0, rfl, by simp, by simp⟩
  · exact ⟨b1, 0, rfl, by simp, by simp⟩
  · exact ⟨b1, b2, rfl, by simp, by simp⟩

end Sys2Proof
end

