-- ==== Sys2Proof/Laws/Exec.lean ====
section
/-! SUPPORT. What running an instruction comes to: every arm of `exec` is R170's step around the operation of its mnemonic, and
everything an operation does is a register write, a bus read or a bus write. -/

namespace Sys2Proof.Machine

/-! ## Every meaning is an operation inside R170's step -/

/-- An operation on a source operand; nothing on any other form. -/
def onSource (f : Source → State → Result) : Operand → State → Result
  | .src o, s => f o s
  | .imp, s | .acc, s | .pad _, s | .ind _, s | .rel _, s => .next s

/-- An operation on a memory mode; nothing on any other form. -/
def onMemory (f : MemMode → State → Result) : Operand → State → Result
  | .src (.mem m), s => f m s
  | .src (.imm _), s | .imp, s | .acc, s | .pad _, s | .ind _, s | .rel _, s => .next s

/-- An operation on A or on a memory mode. -/
def onAccOrMemory (acc : State → Result) (f : MemMode → State → Result) : Operand → State → Result
  | .acc, s => acc s
  | .src (.mem m), s => f m s
  | .src (.imm _), s | .imp, s | .pad _, s | .ind _, s | .rel _, s => .next s

/-- An operation on a branch displacement. -/
def onDisplacement (f : Int → State → Result) : Operand → State → Result
  | .rel d, s => f d s
  | .src _, s | .imp, s | .acc, s | .pad _, s | .ind _, s => .next s

/-- JMP's two forms. -/
def jumpOf : Operand → State → Result
  | .src (.mem (.abs a)), s => performJmpAbs a s
  | .ind a, s => performJmpInd a s
  | _, s => .next s

/-- JSR's form. -/
def callOf (pc0 : Word) : Operand → State → Result
  | .src (.mem (.abs a)), s => performJsr a pc0 s
  | _, s => .next s

/-- TAS's form. -/
def tasOf : Operand → State → Result
  | .src (.mem (.aby a)), s => performTas a s
  | _, s => .next s

/-- USBC's form. -/
def usbcOf : Operand → State → Result
  | .src (.imm v), s => performUsbc v s
  | _, s => .next s

/-- The operation of a form, `pc0` being the address of its opcode. -/
def performOf (f : Form) (pc0 : Word) : State → Result :=
  match f.mnemonic with
  | .ora => onSource performOra f.operand
  | .and => onSource performAnd f.operand
  | .eor => onSource performEor f.operand
  | .adc => onSource performAdc f.operand
  | .sbc => onSource performSbc f.operand
  | .cmp => onSource performCmp f.operand
  | .cpx => onSource performCpx f.operand
  | .cpy => onSource performCpy f.operand
  | .bit => onSource performBit f.operand
  | .asl => onAccOrMemory performAslAcc performAslMem f.operand
  | .lsr => onAccOrMemory performLsrAcc performLsrMem f.operand
  | .rol => onAccOrMemory performRolAcc performRolMem f.operand
  | .ror => onAccOrMemory performRorAcc performRorMem f.operand
  | .inc => onMemory performInc f.operand
  | .dec => onMemory performDec f.operand
  | .inx => performInx
  | .iny => performIny
  | .dex => performDex
  | .dey => performDey
  | .lda => onSource performLda f.operand
  | .ldx => onSource performLdx f.operand
  | .ldy => onSource performLdy f.operand
  | .sta => onMemory performSta f.operand
  | .stx => onMemory performStx f.operand
  | .sty => onMemory performSty f.operand
  | .tax => performTax
  | .tay => performTay
  | .txa => performTxa
  | .tya => performTya
  | .tsx => performTsx
  | .txs => performTxs
  | .pha => performPha
  | .pla => performPla
  | .php => performPhp
  | .plp => performPlp
  | .clc => performClc
  | .sec => performSec
  | .cli => performCli
  | .sei => performSei
  | .clv => performClv
  | .cld => performCld
  | .sed => performSed
  | .nop => performNop
  | .jmp => jumpOf f.operand
  | .jsr => callOf pc0 f.operand
  | .rts => performRts
  | .rti => performRti
  | .brk => performBrk pc0
  | .bpl => onDisplacement (fun d => performBpl d pc0) f.operand
  | .bmi => onDisplacement (fun d => performBmi d pc0) f.operand
  | .bvc => onDisplacement (fun d => performBvc d pc0) f.operand
  | .bvs => onDisplacement (fun d => performBvs d pc0) f.operand
  | .bcc => onDisplacement (fun d => performBcc d pc0) f.operand
  | .bcs => onDisplacement (fun d => performBcs d pc0) f.operand
  | .bne => onDisplacement (fun d => performBne d pc0) f.operand
  | .beq => onDisplacement (fun d => performBeq d pc0) f.operand
  | .lax => onSource performLax f.operand
  | .sax => onMemory performSax f.operand
  | .dcp => onMemory performDcp f.operand
  | .isb => onMemory performIsb f.operand
  | .slo => onMemory performSlo f.operand
  | .rla => onMemory performRla f.operand
  | .sre => onMemory performSre f.operand
  | .rra => onMemory performRra f.operand
  | .tas => tasOf f.operand
  | .usbc => usbcOf f.operand
  | .nopStar => performNopStar
  | .alr | .anc | .ane | .arr | .jam | .las | .lxa | .sbx | .sha | .shx | .shy => .next

/-- R170: every arm of `exec` is the step around its form's operation. -/
theorem exec_eq_execute (i : Instr) (s : State) : exec i s = execute i.form (performOf i.form s.pc) s := by
  cases i <;> rfl

/-! ## Refusals -/

theorem refusalOf_brk (s : State) : refusalOf .brk s = if s.params.brk = .refuse then some (.brk s) else none := by
  unfold refusalOf
  by_cases h : s.params.brk = .refuse <;> simp [h, Mnemonic.opClass]

theorem refusalOf_unlisted {m : Mnemonic} (h : m.opClass = .undocumentedUnlisted) (s : State) :
    refusalOf m s = if s.params.unlisted = .refuse then some (.unlisted m s) else none := by
  have : m ≠ .brk := by
    rintro rfl
    cases h
  simp [refusalOf, h, this]

theorem refusalOf_none {m : Mnemonic} {s : State} (h : m = .brk → s.params.brk ≠ .refuse)
    (h' : m.opClass = .undocumentedUnlisted → s.params.unlisted ≠ .refuse) : refusalOf m s = none := by
  unfold refusalOf
  rw [if_neg fun c => h c.1 c.2, if_neg fun c => h' c.1 c.2]

/-- Every refusal is one of the two that a parameter asks for, and leaves the state as it is. -/
theorem refusalOf_some {m : Mnemonic} {s : State} {r : Refusal} (h : refusalOf m s = some r) :
    (m = .brk ∧ r = .brk s ∧ s.params.brk = .refuse) ∨
      (m.opClass = .undocumentedUnlisted ∧ r = .unlisted m s ∧ s.params.unlisted = .refuse) := by
  unfold refusalOf at h
  split at h
  · rename_i c
    exact .inl ⟨c.1, by simpa using h.symm, c.2⟩
  · split at h
    · rename_i c
      exact .inr ⟨c.1, by simpa using h.symm, c.2⟩
    · cases h

/-- A refused instruction does nothing. -/
theorem exec_of_refusal {i : Instr} {s : State} {r : Refusal} (h : refusalOf i.mnemonic s = some r) :
    exec i s = .refused r := by
  rw [exec_eq_execute, execute, show i.form.mnemonic = i.mnemonic from rfl, h]

/-- An instruction that is not refused is its operation, past its bytes, and the end of R170. -/
theorem exec_of_no_refusal {i : Instr} {s : State} (h : refusalOf i.mnemonic s = none) :
    exec i s = andThen (performOf i.form s.pc (s.setPc (nextPc i s))) fun t => .next (finishInstr i.form.flagPass t) := by
  rw [exec_eq_execute, execute, show i.form.mnemonic = i.mnemonic from rfl, h]
  rfl

/-! ## What every operation is made of -/

/-- What survives everything an instruction does: the write of a register, a video call, a bus write that completes. -/
structure Closed (P : State → Prop) : Prop where
  a : ∀ {s} v, P s → P (s.setA v)
  x : ∀ {s} v, P s → P (s.setX v)
  y : ∀ {s} v, P s → P (s.setY v)
  sp : ∀ {s} v, P s → P (s.setSp v)
  pc : ∀ {s} v, P s → P (s.setPc v)
  sr : ∀ {s} v, P s → P (s.setSr v)
  video : ∀ {s} v, P s → P (s.setVideo v)
  write : ∀ {a v s t}, P s → busWrite a v s = .next t → P t

/-- An outcome within `P`: it goes on in a state of `P`, or it is the fault of a bus write made in a state of `P`. -/
def Within (P : State → Prop) : Result → Prop
  | .next t => P t
  | .fault e => ∃ a v u, P u ∧ busWrite a v u = .fault e
  | .refused _ => False

namespace Closed

variable {P : State → Prop} (hP : Closed P)
include hP

theorem flag {s : State} (f : Flag) (v : Bool) (h : P s) : P (s.setFlag f v) := hP.sr _ h
theorem nz {s : State} (v : Byte) (h : P s) : P (setNZ v s) := hP.flag _ _ (hP.flag _ _ h)
theorem busRead {s : State} (a : Word) (h : P s) : P (busRead a s).2 := busRead_state a s ▸ hP.video _ h
theorem read16 {s : State} (a : Word) (h : P s) : P (read16 a s).2 := read16_state a s ▸ hP.video _ h
theorem readSource {s : State} (o : Source) (h : P s) : P (readSource o s).2 := readSource_state o s ▸ hP.video _ h
theorem pull {s : State} (h : P s) : P (pull s).2 := by rw [pull_eq]; exact hP.sp _ h
theorem push {s : State} (v : Byte) (h : P s) : P (push v s) := by
  obtain ⟨t, ht, e⟩ := push_next (v := v) (s := s)
  exact e ▸ hP.sp _ (hP.write h ht)
theorem pullWord {s : State} (h : P s) : P (pullWord s).2 := hP.pull (hP.pull h)
theorem pushWord {s : State} (w : Word) (h : P s) : P (pushWord w s) := hP.push _ (hP.push _ h)
theorem pushFrame {s : State} (w : Word) (v : Byte) (h : P s) : P (pushFrame w v s) := hP.push _ (hP.pushWord _ h)
theorem enterInterrupt {s : State} (w : Word) (v : Byte) (vec : Word) (h : P s) : P (enterInterrupt w v vec s) :=
  hP.pc _ (hP.read16 _ (hP.flag _ _ (hP.pushFrame _ _ h)))
theorem returnFromInterrupt {s : State} (h : P s) : P (returnFromInterrupt s) :=
  hP.pc _ (hP.pullWord (hP.sr _ (hP.pull h)))
theorem addBytes {s : State} (a m : Byte) (h : P s) : P (addBytes a m s).2 :=
  addBytes_eq_setSr s a m ▸ hP.sr _ h
theorem subBytes {s : State} (a m : Byte) (h : P s) : P (subBytes a m s).2 :=
  subBytes_eq_setSr s a m ▸ hP.sr _ h
theorem shiftLeft {s : State} (r : Bool) (m : Byte) (h : P s) : P (shiftLeft r m s).2 := hP.sr _ h
theorem shiftRight {s : State} (r : Bool) (m : Byte) (h : P s) : P (shiftRight r m s).2 := hP.sr _ h
theorem compareBytes {s : State} (a m : Byte) (h : P s) : P (compareBytes a m s) :=
  compareBytes_eq_setSr s a m ▸ hP.sr _ h
theorem bitTest {s : State} (a m : Byte) (h : P s) : P (bitTest a m s) :=
  bitTest_eq_setSr s a m ▸ hP.sr _ h
theorem finishInstr {s : State} (b : Bool) (h : P s) : P (finishInstr b s) := by
  unfold Sys2Proof.Machine.finishInstr
  split
  · exact hP.sr _ (hP.nz _ h)
  · exact hP.sr _ h

theorem busWrite {s : State} (a : Word) (v : Byte) (h : P s) : Within P (busWrite a v s) := by
  cases e : Sys2Proof.Machine.busWrite a v s with
  | next t => exact hP.write h e
  | fault f => exact ⟨a, v, s, h, e⟩
  | refused r => exact absurd e (busWrite_not_refused a v s r)

theorem storeByte {s : State} (m : MemMode) (f : State → Byte) (h : P s) : Within P (storeByte m f s) := by
  rw [storeByte_eq]
  exact hP.busWrite _ _ h

/-- A read-modify-write and what follows it. -/
theorem modify {s : State} (m : MemMode) {f : Byte → State → Byte × State} {k : Byte × State → Result}
    (hf : ∀ v t, P t → P (f v t).2) (hk : ∀ v t, P t → Within P (k (v, t))) (h : P s) :
    Within P (andThen (modify m f s) k) := by
  rw [modify_eq]
  generalize ho : Sys2Proof.Machine.busRead (addressOf m s) s = old
  have := hP.busWrite (addressOf m s) (f old.1 old.2).1 (hf old.1 _ (ho ▸ hP.busRead (addressOf m s) h))
  revert this
  generalize Sys2Proof.Machine.busWrite _ _ _ = r
  cases r with
  | next t => exact fun ht => hk _ _ ht
  | fault e => exact id
  | refused r => exact id

omit hP in
theorem onSource {s : State} {f : Source → State → Result} (hf : ∀ o, Within P (f o s)) (h : P s) (o : Operand) :
    Within P (onSource f o s) := by
  cases o <;> first | exact hf _ | exact h

omit hP in
theorem onMemory {s : State} {f : MemMode → State → Result} (hf : ∀ m, Within P (f m s)) (h : P s) (o : Operand) :
    Within P (onMemory f o s) := by
  rcases o with _ | _ | _ | ⟨_ | _⟩ | _ | _ <;> first | exact hf _ | exact h

omit hP in
theorem onAccOrMemory {s : State} {acc : State → Result} {f : MemMode → State → Result} (ha : Within P (acc s))
    (hf : ∀ m, Within P (f m s)) (h : P s) (o : Operand) : Within P (onAccOrMemory acc f o s) := by
  rcases o with _ | _ | _ | ⟨_ | _⟩ | _ | _ <;> first | exact ha | exact hf _ | exact h

theorem branch {s : State} (c : Bool) (d : Int) (pc0 : Word) (h : P s) : Within P (branch c d pc0 s) := by
  unfold Sys2Proof.Machine.branch
  split
  · exact hP.pc _ h
  · exact h

omit hP in
theorem onDisplacement {s : State} {f : Int → State → Result} (hf : ∀ d, Within P (f d s)) (h : P s) (o : Operand) :
    Within P (onDisplacement f o s) := by
  cases o <;> first | exact hf _ | exact h

/-- Every operation keeps `P`, and stops only where a bus write faults. -/
theorem performOf (f : Form) (pc0 : Word) {s : State} (h : P s) : Within P (performOf f pc0 s) := by
  obtain ⟨mn, o⟩ := f
  cases mn
  case ora | and | eor | lda =>
    refine onSource (fun o => ?_) h o
    exact hP.a _ (hP.readSource o h)
  case adc =>
    refine onSource (fun o => ?_) h o
    exact hP.a _ (hP.addBytes _ _ (hP.readSource o h))
  case sbc =>
    refine onSource (fun o => ?_) h o
    exact hP.a _ (hP.subBytes _ _ (hP.readSource o h))
  case cmp | cpx | cpy =>
    refine onSource (fun o => ?_) h o
    exact hP.compareBytes _ _ (hP.readSource o h)
  case bit =>
    refine onSource (fun o => ?_) h o
    exact hP.bitTest _ _ (hP.readSource o h)
  case ldx =>
    refine onSource (fun o => ?_) h o
    exact hP.nz _ (hP.x _ (hP.readSource o h))
  case ldy =>
    refine onSource (fun o => ?_) h o
    exact hP.nz _ (hP.y _ (hP.readSource o h))
  case lax =>
    refine onSource (fun o => ?_) h o
    exact hP.x _ (hP.a _ (hP.readSource o h))
  case asl | rol =>
    refine onAccOrMemory ?_ (fun m => ?_) h o
    · exact hP.a _ (hP.shiftLeft _ _ h)
    · exact hP.modify m (fun v t ht => hP.shiftLeft _ v ht) (fun v t ht => by exact hP.nz v ht) h
  case lsr | ror =>
    refine onAccOrMemory ?_ (fun m => ?_) h o
    · exact hP.a _ (hP.shiftRight _ _ h)
    · exact hP.modify m (fun v t ht => hP.shiftRight _ v ht) (fun v t ht => by exact hP.nz v ht) h
  case inc | dec =>
    refine onMemory (fun m => ?_) h o
    exact hP.modify m (fun v t ht => ht) (fun v t ht => by exact hP.nz v ht) h
  case inx | dex | tsx => exact hP.nz _ (hP.x _ h)
  case iny | dey => exact hP.nz _ (hP.y _ h)
  case sta | stx | sty | sax =>
    refine onMemory (fun m => ?_) h o
    exact hP.storeByte m _ h
  case tax => exact hP.x _ h
  case tay => exact hP.y _ h
  case txa | tya => exact hP.a _ h
  case txs => exact hP.sp _ h
  case pha | php => exact hP.push _ h
  case pla => exact hP.a _ (hP.pull h)
  case plp => exact hP.sr _ (hP.pull h)
  case clc | sec | cli | sei | clv | cld | sed => exact hP.flag _ _ h
  case nop | nopStar | alr | anc | ane | arr | jam | las | lxa | sbx | sha | shx | shy => exact h
  case jmp =>
    show Within P (jumpOf o s)
    unfold jumpOf
    split
    · exact hP.pc _ h
    · exact hP.pc _ (hP.read16 _ h)
    · exact h
  case jsr =>
    show Within P (callOf pc0 o s)
    unfold callOf
    split
    · exact hP.pc _ (hP.pushWord _ h)
    · exact h
  case rts => exact hP.pc _ (hP.pullWord h)
  case rti => exact hP.returnFromInterrupt h
  case brk =>
    show Within P (performBrk pc0 s)
    unfold performBrk
    split
    · exact hP.enterInterrupt _ _ _ h
    · exact hP.pushFrame _ _ h
    · exact hP.pushFrame _ _ h
  case bpl | bmi | bvc | bvs | bcc | bcs | bne | beq =>
    refine onDisplacement (fun d => ?_) h o
    exact hP.branch _ d pc0 h
  case dcp =>
    refine onMemory (fun m => ?_) h o
    exact hP.modify m (fun v t ht => ht) (fun v t ht => by exact hP.compareBytes _ v ht) h
  case isb =>
    refine onMemory (fun m => ?_) h o
    exact hP.modify m (fun v t ht => ht) (fun v t ht => by exact hP.a _ (hP.subBytes _ v ht)) h
  case slo | rla =>
    refine onMemory (fun m => ?_) h o
    exact hP.modify m (fun v t ht => hP.shiftLeft _ v ht) (fun v t ht => by exact hP.a _ ht) h
  case sre =>
    refine onMemory (fun m => ?_) h o
    exact hP.modify m (fun v t ht => hP.shiftRight _ v ht) (fun v t ht => by exact hP.a _ ht) h
  case rra =>
    refine onMemory (fun m => ?_) h o
    exact hP.modify m (fun v t ht => hP.shiftRight _ v ht) (fun v t ht => by exact hP.a _ (hP.addBytes _ v ht)) h
  case tas =>
    show Within P (tasOf o s)
    unfold tasOf
    split
    · exact hP.storeByte _ _ (hP.sp _ h)
    · exact h
  case usbc =>
    show Within P (usbcOf o s)
    unfold usbcOf
    split
    · exact hP.a _ (hP.subBytes _ _ h)
    · exact h

/-- Every instruction keeps `P`, and stops only where a parameter refuses it or a bus write faults. -/
theorem exec (i : Instr) {s : State} (h : P s) :
    match exec i s with
    | .next t => P t
    | .fault e => ∃ a v u, P u ∧ Sys2Proof.Machine.busWrite a v u = .fault e
    | .refused r => refusalOf i.mnemonic s = some r := by
  rw [exec_eq_execute, execute, show i.form.mnemonic = i.mnemonic from rfl]
  cases e : refusalOf i.mnemonic s with
  | some r => rfl
  | none =>
    have := hP.performOf i.form s.pc (hP.pc (s.pc + BitVec.ofNat 16 i.form.length) h)
    revert this
    simp only
    generalize Sys2Proof.Machine.performOf _ _ _ = r
    cases r with
    | next t => exact fun ht => hP.finishInstr _ ht
    | fault f => exact id
    | refused r => exact False.elim

end Closed

end Sys2Proof.Machine
end

