-- ==== Sys2Proof/Laws/Mapper.lean ====
section
/-! SUPPORT. Bank copies: what the ROM window reads as after one, and when a commit completes. -/

namespace Sys2Proof.Machine

/-- A copied bank never reaches above its 16 KiB. -/
theorem length_prgBankBytes_le (c : Cartridge) (b : Nat) : (prgBankBytes c b).length ≤ 16384 := by
  simp [prgBankBytes]

/-- A bank of the image has all its bytes. -/
theorem length_prgBankBytes {c : Cartridge} (h : c.Wf) {b : Nat} (hb : b < c.prgBanks) :
    (prgBankBytes c b).length = 16384 := by
  have := h.1
  simp [prgBankBytes]
  omega

theorem getD_prgBankBytes (c : Cartridge) (b : Nat) {k : Nat} (hk : k < 16384) :
    (prgBankBytes c b).getD k unlistedByte = c.prg.getD (b * 16384 + k) unlistedByte := by
  simp [prgBankBytes, hk, List.getElem?_drop]

/-- A copy leaves everything below its destination alone. -/
theorem byteAt_copyPrg_below (b : Nat) {dst a : Nat} (s : State) (h : a < dst) :
    (copyPrg b dst s).mem.byteAt a = s.mem.byteAt a := by
  simp only [copyPrg, State.setMem_mem, byteAt_putBlock]
  rw [if_neg (by omega)]

/-- A copy of a bank of the image shows that bank. -/
theorem byteAt_copyPrg {s : State} (h : s.cart.Wf) {b : Nat} (hb : b < s.cart.prgBanks) (dst : Nat) {k : Nat}
    (hk : k < 16384) :
    (copyPrg b dst s).mem.byteAt (dst + k) = s.cart.prg.getD (b * 16384 + k) unlistedByte := by
  have := length_prgBankBytes h hb
  simp only [copyPrg, State.setMem_mem, byteAt_putBlock]
  rw [if_pos (by omega), Nat.add_sub_cancel_left, getD_prgBankBytes _ _ hk]

/-- Two copies, one into each half of the window, show their banks. -/
theorem showsBank_copies {s : State} (h : s.cart.Wf) {low high : Nat} (hl : low < s.cart.prgBanks)
    (hh : high < s.cart.prgBanks) :
    ShowsBank (copyPrg high 0xC000 (copyPrg low 0x8000 s)) 0x8000 low ∧
      ShowsBank (copyPrg high 0xC000 (copyPrg low 0x8000 s)) 0xC000 high :=
  ⟨⟨hl, fun k hk => (byteAt_copyPrg_below high _ (by omega)).trans (byteAt_copyPrg h hl 0x8000 hk)⟩,
    ⟨hh, fun k hk => byteAt_copyPrg (s := copyPrg low 0x8000 s) h hh 0xC000 hk⟩⟩

/-- Two copies keep the canonical form. -/
theorem copies_wf {s : State} (h : s.mem.wf) (low high : Nat) :
    (copyPrg high 0xC000 (copyPrg low 0x8000 s)).mem.wf := by
  have hl := length_prgBankBytes_le s.cart low
  have hh := length_prgBankBytes_le s.cart high
  refine putBlock_wf (putBlock_wf h ?_) ?_
  · show 0x8000 + (prgBankBytes s.cart low).length ≤ 65536
    omega
  · show 0xC000 + (prgBankBytes s.cart high).length ≤ 65536
    omega

/-! ## Completing and faulting -/

/-- A CHR copy faults exactly when its units are not in the image. -/
theorem copyChr_fault {r : MapperReg} {u k off : Nat} {s : State} {f : Fault} (h : copyChr r u k off s = .fault f) :
    f = .mapperBankOutOfRange r u s ∧ s.cart.chrBanks * 2 < u + k := by
  unfold copyChr at h
  split at h
  · cases h
    exact ⟨rfl, by assumption⟩
  · cases h

/-- The unit an 8KB commit selects is an even one. -/
theorem evenUnit_toNat (v : BitVec 5) : (v &&& 0x1E).toNat = v.toNat / 2 * 2 := by revert v; decide

/-- Everything a commit that faults says: the bank it names is not in the image. -/
theorem commitEffect_fault {r : MapperReg} {s : State} {f : Fault} (h : commitEffect r s = .fault f) :
    ∃ bank, f = .mapperBankOutOfRange r bank s ∧
      ((r = .prgBank ∧ s.cart.prgBanks ≤ bank) ∨
        ((r = .chrBank0 ∨ r = .chrBank1) ∧ s.cart.chrBanks ≠ 0 ∧ s.cart.chrBanks * 2 ≤ bank)) := by
  cases r
  · cases h
  · simp only [commitEffect, chr0Commit] at h
    split at h
    · cases h
    · split at h
      · obtain ⟨rfl, hb⟩ := copyChr_fault h
        exact ⟨_, rfl, .inr ⟨.inl rfl, by assumption, by omega⟩⟩
      · obtain ⟨rfl, hb⟩ := copyChr_fault h
        have even := evenUnit_toNat s.mmc1.chrBank0.value
        exact ⟨_, rfl, .inr ⟨.inl rfl, by assumption, by omega⟩⟩
  · simp only [commitEffect, chr1Commit] at h
    split at h
    · cases h
    · split at h
      · obtain ⟨rfl, hb⟩ := copyChr_fault h
        exact ⟨_, rfl, .inr ⟨.inr rfl, by assumption, by omega⟩⟩
      · cases h
  · simp only [commitEffect, prgCommit] at h
    split at h
    · cases h
      exact ⟨_, rfl, .inl ⟨rfl, by assumption⟩⟩
    · split at h
      · cases h
        exact ⟨_, rfl, .inl ⟨rfl, by assumption⟩⟩
      · cases h

/-- The state a commit's side effect starts from: the register committed and emptied (R102). -/
def committed (r : MapperReg) (v : Byte) (s : State) : State :=
  s.setMmc1 (s.mmc1.setReg r { shift := 0, count := 0, value := shiftIn (s.mmc1.reg r).shift v, committed := true })

/-- A bus write that is no commit completes; one that is, is the commit's side effect. -/
theorem busWrite_cases (a : Word) (v : Byte) (s : State) :
    (IsCommit a v s ∧ busWrite a v s = commitEffect (mapperRegAt a) (committed (mapperRegAt a) v s)) ∨
      (¬IsCommit a v s ∧ ∃ t, busWrite a v s = .next t) := by
  by_cases hl : 0x8000 ≤ a.toNat
  · rw [busWrite_rom hl]
    have hm : a.msb = true := by simp [word_msb, hl]
    unfold mapperWrite
    split
    · rename_i e
      exact .inr ⟨fun c => by have := c.1; simp [e] at this, _, rfl⟩
    · rename_i e
      exact .inr ⟨fun c => by have := c.1; simp [e] at this, _, rfl⟩
    · rename_i e
      unfold mmc1Write
      split
      · rename_i hv
        exact .inr ⟨fun c => by simp [IsCommit, hv] at c, _, rfl⟩
      · rename_i hv
        unfold mmc1ShiftIn
        simp only
        split
        · rename_i hc
          exact .inl ⟨⟨e, hm, by simpa using hv, by omega⟩, rfl⟩
        · rename_i hc
          exact .inr ⟨fun c => hc (by have := c.2.2.2; omega), _, rfl⟩
  · have hm : a.msb = false := by simp [word_msb, hl]
    refine .inr ⟨fun c => by simp [c.2.1] at hm, ?_⟩
    unfold busWrite
    split
    · exact ⟨_, rfl⟩
    · split
      · exact ⟨_, rfl⟩
      · rw [if_neg (by simp [hm])]
        exact ⟨_, rfl⟩

/-- Everything a bus write that faults says. -/
theorem busWrite_fault {a : Word} {v : Byte} {s : State} {f : Fault} (h : busWrite a v s = .fault f) :
    IsCommit a v s ∧ ∃ bank, f = .mapperBankOutOfRange (mapperRegAt a) bank (committed (mapperRegAt a) v s) ∧
      ((mapperRegAt a = .prgBank ∧ s.cart.prgBanks ≤ bank) ∨
        ((mapperRegAt a = .chrBank0 ∨ mapperRegAt a = .chrBank1) ∧ s.cart.chrBanks ≠ 0 ∧
          s.cart.chrBanks * 2 ≤ bank)) := by
  rcases busWrite_cases a v s with ⟨hc, e⟩ | ⟨hc, t, e⟩
  · rw [e] at h
    exact ⟨hc, commitEffect_fault h⟩
  · rw [e] at h
    cases h

/-- When a commit's side effect completes. -/
theorem commitEffect_completes {r : MapperReg} {v : Byte} {s : State} :
    (∃ t, commitEffect r (committed r v s) = .next t) ↔ CommitInRange s r (shiftIn (s.mmc1.reg r).shift v) := by
  cases r
  · exact ⟨fun _ => trivial, fun _ => ⟨_, rfl⟩⟩
  · show (∃ t, (if s.cart.chrBanks = 0 then _ else if chrMode s.mmc1 = true then _ else _) = _) ↔
      (s.cart.chrBanks = 0 ∨ if chrMode s.mmc1 = true then _ else _)
    by_cases h0 : s.cart.chrBanks = 0
    · simp [h0]
    · by_cases hm : chrMode s.mmc1 = true
      · simp only [h0, hm, if_true, if_false, false_or]
        exact copyChr_completes
      · simp only [h0, hm, if_false, false_or]
        exact copyChr_completes
  · show (∃ t, (if s.cart.chrBanks = 0 then _ else if chrMode s.mmc1 = true then _ else _) = _) ↔
      (s.cart.chrBanks = 0 ∨ chrMode s.mmc1 = false ∨ _)
    by_cases h0 : s.cart.chrBanks = 0
    · simp [h0]
    · by_cases hm : chrMode s.mmc1 = true
      · simp only [h0, hm, if_true, if_false, false_or, Bool.true_eq_false]
        exact copyChr_completes
      · simp [h0, hm]
  · exact prgCommit_completes

end Sys2Proof.Machine
end

