-- ==== Sys2Proof/Laws/PerInstr.lean ====
section
/-! SUPPORT. The per-instruction family EncodingRow: the opcode of a well-formed instruction selects the row of R145's map that, given
the instruction's operand bytes, is the instruction. -/

namespace Sys2Proof.Laws.EncodingRow

/-- The row of the opcode, completed with the operand bytes, is the instruction. -/
def Statement (i : Instr) : Prop :=
  i.wellFormed = true →
    i.operand.bytes.length = (shapeOf i.opcode).operandBytes ∧
    (shapeOf i.opcode).instr (i.operand.bytes.getD 0 0) (i.operand.bytes.getD 1 0) = i

variable {i : Instr}

theorem of_fixed (op : Byte) (ho : i.opcode = op) (hs : shapeOf op = .fixed i) (hb : i.operand.bytes = []) :
    Statement i := by
  intro _
  rw [ho, hs, hb]
  exact ⟨rfl, rfl⟩

theorem of_byte (op : Byte) {f : Byte → Instr} {b : Byte} (ho : i.opcode = op) (hs : shapeOf op = .byte f) (hi : i = f b)
    (hb : i.operand.bytes = [b]) : Statement i := by
  intro _
  rw [ho, hs, hb]
  exact ⟨rfl, hi.symm⟩

theorem of_word (op : Byte) {f : Word → Instr} {a : Word} (ho : i.opcode = op) (hs : shapeOf op = .word f) (hi : i = f a)
    (hb : i.operand.bytes = [loByte a, hiByte a]) : Statement i := by
  intro _
  rw [ho, hs, hb]
  exact ⟨rfl, by simp [Shape.instr, ← hi]⟩

theorem of_disp (op : Byte) {f : Int → Instr} {d : Int} (ho : i.opcode = op) (hs : shapeOf op = .disp f) (hi : i = f d)
    (hd : i.operand = .rel d) : Statement i := by
  intro h
  simp only [Instr.wellFormed, hd, Operand.wellFormed, Bool.and_eq_true, decide_eq_true_eq] at h
  rw [ho, hs, hd]
  exact ⟨rfl, by simp [Operand.bytes, Shape.instr, dispOf_dispByte h.1 h.2, ← hi]⟩

theorem brk (padding : Byte) : Statement (.brk padding) := of_byte 0x00 rfl rfl rfl rfl
theorem oraIzx (z : Byte) : Statement (.oraIzx z) := of_byte 0x01 rfl rfl rfl rfl
theorem sloIzx (z : Byte) : Statement (.sloIzx z) := of_byte 0x03 rfl rfl rfl rfl
theorem nopStarZp04 (z : Byte) : Statement (.nopStarZp04 z) := of_byte 0x04 rfl rfl rfl rfl
theorem oraZp (z : Byte) : Statement (.oraZp z) := of_byte 0x05 rfl rfl rfl rfl
theorem aslZp (z : Byte) : Statement (.aslZp z) := of_byte 0x06 rfl rfl rfl rfl
theorem sloZp (z : Byte) : Statement (.sloZp z) := of_byte 0x07 rfl rfl rfl rfl
theorem oraImm (v : Byte) : Statement (.oraImm v) := of_byte 0x09 rfl rfl rfl rfl
theorem ancImm0B (v : Byte) : Statement (.ancImm0B v) := of_byte 0x0B rfl rfl rfl rfl
theorem nopStarAbs (a : Word) : Statement (.nopStarAbs a) := of_word 0x0C rfl rfl rfl rfl
theorem oraAbs (a : Word) : Statement (.oraAbs a) := of_word 0x0D rfl rfl rfl rfl
theorem aslAbs (a : Word) : Statement (.aslAbs a) := of_word 0x0E rfl rfl rfl rfl
theorem sloAbs (a : Word) : Statement (.sloAbs a) := of_word 0x0F rfl rfl rfl rfl
theorem bpl (d : Int) : Statement (.bpl d) := of_disp 0x10 rfl rfl rfl rfl
theorem oraIzy (z : Byte) : Statement (.oraIzy z) := of_byte 0x11 rfl rfl rfl rfl
theorem sloIzy (z : Byte) : Statement (.sloIzy z) := of_byte 0x13 rfl rfl rfl rfl
theorem nopStarZpx14 (z : Byte) : Statement (.nopStarZpx14 z) := of_byte 0x14 rfl rfl rfl rfl
theorem oraZpx (z : Byte) : Statement (.oraZpx z) := of_byte 0x15 rfl rfl rfl rfl
theorem aslZpx (z : Byte) : Statement (.aslZpx z) := of_byte 0x16 rfl rfl rfl rfl
theorem sloZpx (z : Byte) : Statement (.sloZpx z) := of_byte 0x17 rfl rfl rfl rfl
theorem oraAby (a : Word) : Statement (.oraAby a) := of_word 0x19 rfl rfl rfl rfl
theorem sloAby (a : Word) : Statement (.sloAby a) := of_word 0x1B rfl rfl rfl rfl
theorem nopStarAbx1C (a : Word) : Statement (.nopStarAbx1C a) := of_word 0x1C rfl rfl rfl rfl
theorem oraAbx (a : Word) : Statement (.oraAbx a) := of_word 0x1D rfl rfl rfl rfl
theorem aslAbx (a : Word) : Statement (.aslAbx a) := of_word 0x1E rfl rfl rfl rfl
theorem sloAbx (a : Word) : Statement (.sloAbx a) := of_word 0x1F rfl rfl rfl rfl
theorem jsrAbs (a : Word) : Statement (.jsrAbs a) := of_word 0x20 rfl rfl rfl rfl
theorem andIzx (z : Byte) : Statement (.andIzx z) := of_byte 0x21 rfl rfl rfl rfl
theorem rlaIzx (z : Byte) : Statement (.rlaIzx z) := of_byte 0x23 rfl rfl rfl rfl
theorem bitZp (z : Byte) : Statement (.bitZp z) := of_byte 0x24 rfl rfl rfl rfl
theorem andZp (z : Byte) : Statement (.andZp z) := of_byte 0x25 rfl rfl rfl rfl
theorem rolZp (z : Byte) : Statement (.rolZp z) := of_byte 0x26 rfl rfl rfl rfl
theorem rlaZp (z : Byte) : Statement (.rlaZp z) := of_byte 0x27 rfl rfl rfl rfl
theorem andImm (v : Byte) : Statement (.andImm v) := of_byte 0x29 rfl rfl rfl rfl
theorem ancImm2B (v : Byte) : Statement (.ancImm2B v) := of_byte 0x2B rfl rfl rfl rfl
theorem bitAbs (a : Word) : Statement (.bitAbs a) := of_word 0x2C rfl rfl rfl rfl
theorem andAbs (a : Word) : Statement (.andAbs a) := of_word 0x2D rfl rfl rfl rfl
theorem rolAbs (a : Word) : Statement (.rolAbs a) := of_word 0x2E rfl rfl rfl rfl
theorem rlaAbs (a : Word) : Statement (.rlaAbs a) := of_word 0x2F rfl rfl rfl rfl
theorem bmi (d : Int) : Statement (.bmi d) := of_disp 0x30 rfl rfl rfl rfl
theorem andIzy (z : Byte) : Statement (.andIzy z) := of_byte 0x31 rfl rfl rfl rfl
theorem rlaIzy (z : Byte) : Statement (.rlaIzy z) := of_byte 0x33 rfl rfl rfl rfl
theorem nopStarZpx34 (z : Byte) : Statement (.nopStarZpx34 z) := of_byte 0x34 rfl rfl rfl rfl
theorem andZpx (z : Byte) : Statement (.andZpx z) := of_byte 0x35 rfl rfl rfl rfl
theorem rolZpx (z : Byte) : Statement (.rolZpx z) := of_byte 0x36 rfl rfl rfl rfl
theorem rlaZpx (z : Byte) : Statement (.rlaZpx z) := of_byte 0x37 rfl rfl rfl rfl
theorem andAby (a : Word) : Statement (.andAby a) := of_word 0x39 rfl rfl rfl rfl
theorem rlaAby (a : Word) : Statement (.rlaAby a) := of_word 0x3B rfl rfl rfl rfl
theorem nopStarAbx3C (a : Word) : Statement (.nopStarAbx3C a) := of_word 0x3C rfl rfl rfl rfl
theorem andAbx (a : Word) : Statement (.andAbx a) := of_word 0x3D rfl rfl rfl rfl
theorem rolAbx (a : Word) : Statement (.rolAbx a) := of_word 0x3E rfl rfl rfl rfl
theorem rlaAbx (a : Word) : Statement (.rlaAbx a) := of_word 0x3F rfl rfl rfl rfl
theorem eorIzx (z : Byte) : Statement (.eorIzx z) := of_byte 0x41 rfl rfl rfl rfl
theorem sreIzx (z : Byte) : Statement (.sreIzx z) := of_byte 0x43 rfl rfl rfl rfl
theorem nopStarZp44 (z : Byte) : Statement (.nopStarZp44 z) := of_byte 0x44 rfl rfl rfl rfl
theorem eorZp (z : Byte) : Statement (.eorZp z) := of_byte 0x45 rfl rfl rfl rfl
theorem lsrZp (z : Byte) : Statement (.lsrZp z) := of_byte 0x46 rfl rfl rfl rfl
theorem sreZp (z : Byte) : Statement (.sreZp z) := of_byte 0x47 rfl rfl rfl rfl
theorem eorImm (v : Byte) : Statement (.eorImm v) := of_byte 0x49 rfl rfl rfl rfl
theorem alrImm (v : Byte) : Statement (.alrImm v) := of_byte 0x4B rfl rfl rfl rfl
theorem jmpAbs (a : Word) : Statement (.jmpAbs a) := of_word 0x4C rfl rfl rfl rfl
theorem eorAbs (a : Word) : Statement (.eorAbs a) := of_word 0x4D rfl rfl rfl rfl
theorem lsrAbs (a : Word) : Statement (.lsrAbs a) := of_word 0x4E rfl rfl rfl rfl
theorem sreAbs (a : Word) : Statement (.sreAbs a) := of_word 0x4F rfl rfl rfl rfl
theorem bvc (d : Int) : Statement (.bvc d) := of_disp 0x50 rfl rfl rfl rfl
theorem eorIzy (z : Byte) : Statement (.eorIzy z) := of_byte 0x51 rfl rfl rfl rfl
theorem sreIzy (z : Byte) : Statement (.sreIzy z) := of_byte 0x53 rfl rfl rfl rfl
theorem nopStarZpx54 (z : Byte) : Statement (.nopStarZpx54 z) := of_byte 0x54 rfl rfl rfl rfl
theorem eorZpx (z : Byte) : Statement (.eorZpx z) := of_byte 0x55 rfl rfl rfl rfl
theorem lsrZpx (z : Byte) : Statement (.lsrZpx z) := of_byte 0x56 rfl rfl rfl rfl
theorem sreZpx (z : Byte) : Statement (.sreZpx z) := of_byte 0x57 rfl rfl rfl rfl
theorem eorAby (a : Word) : Statement (.eorAby a) := of_word 0x59 rfl rfl rfl rfl
theorem sreAby (a : Word) : Statement (.sreAby a) := of_word 0x5B rfl rfl rfl rfl
theorem nopStarAbx5C (a : Word) : Statement (.nopStarAbx5C a) := of_word 0x5C rfl rfl rfl rfl
theorem eorAbx (a : Word) : Statement (.eorAbx a) := of_word 0x5D rfl rfl rfl rfl
theorem lsrAbx (a : Word) : Statement (.lsrAbx a) := of_word 0x5E rfl rfl rfl rfl
theorem sreAbx (a : Word) : Statement (.sreAbx a) := of_word 0x5F rfl rfl rfl rfl
theorem adcIzx (z : Byte) : Statement (.adcIzx z) := of_byte 0x61 rfl rfl rfl rfl
theorem rraIzx (z : Byte) : Statement (.rraIzx z) := of_byte 0x63 rfl rfl rfl rfl
theorem nopStarZp64 (z : Byte) : Statement (.nopStarZp64 z) := of_byte 0x64 rfl rfl rfl rfl
theorem adcZp (z : Byte) : Statement (.adcZp z) := of_byte 0x65 rfl rfl rfl rfl
theorem rorZp (z : Byte) : Statement (.rorZp z) := of_byte 0x66 rfl rfl rfl rfl
theorem rraZp (z : Byte) : Statement (.rraZp z) := of_byte 0x67 rfl rfl rfl rfl
theorem adcImm (v : Byte) : Statement (.adcImm v) := of_byte 0x69 rfl rfl rfl rfl
theorem arrImm (v : Byte) : Statement (.arrImm v) := of_byte 0x6B rfl rfl rfl rfl
theorem jmpInd (a : Word) : Statement (.jmpInd a) := of_word 0x6C rfl rfl rfl rfl
theorem adcAbs (a : Word) : Statement (.adcAbs a) := of_word 0x6D rfl rfl rfl rfl
theorem rorAbs (a : Word) : Statement (.rorAbs a) := of_word 0x6E rfl rfl rfl rfl
theorem rraAbs (a : Word) : Statement (.rraAbs a) := of_word 0x6F rfl rfl rfl rfl
theorem bvs (d : Int) : Statement (.bvs d) := of_disp 0x70 rfl rfl rfl rfl
theorem adcIzy (z : Byte) : Statement (.adcIzy z) := of_byte 0x71 rfl rfl rfl rfl
theorem rraIzy (z : Byte) : Statement (.rraIzy z) := of_byte 0x73 rfl rfl rfl rfl
theorem nopStarZpx74 (z : Byte) : Statement (.nopStarZpx74 z) := of_byte 0x74 rfl rfl rfl rfl
theorem adcZpx (z : Byte) : Statement (.adcZpx z) := of_byte 0x75 rfl rfl rfl rfl
theorem rorZpx (z : Byte) : Statement (.rorZpx z) := of_byte 0x76 rfl rfl rfl rfl
theorem rraZpx (z : Byte) : Statement (.rraZpx z) := of_byte 0x77 rfl rfl rfl rfl
theorem adcAby (a : Word) : Statement (.adcAby a) := of_word 0x79 rfl rfl rfl rfl
theorem rraAby (a : Word) : Statement (.rraAby a) := of_word 0x7B rfl rfl rfl rfl
theorem nopStarAbx7C (a : Word) : Statement (.nopStarAbx7C a) := of_word 0x7C rfl rfl rfl rfl
theorem adcAbx (a : Word) : Statement (.adcAbx a) := of_word 0x7D rfl rfl rfl rfl
theorem rorAbx (a : Word) : Statement (.rorAbx a) := of_word 0x7E rfl rfl rfl rfl
theorem rraAbx (a : Word) : Statement (.rraAbx a) := of_word 0x7F rfl rfl rfl rfl
theorem nopStarImm80 (v : Byte) : Statement (.nopStarImm80 v) := of_byte 0x80 rfl rfl rfl rfl
theorem staIzx (z : Byte) : Statement (.staIzx z) := of_byte 0x81 rfl rfl rfl rfl
theorem nopStarImm82 (v : Byte) : Statement (.nopStarImm82 v) := of_byte 0x82 rfl rfl rfl rfl
theorem saxIzx (z : Byte) : Statement (.saxIzx z) := of_byte 0x83 rfl rfl rfl rfl
theorem styZp (z : Byte) : Statement (.styZp z) := of_byte 0x84 rfl rfl rfl rfl
theorem staZp (z : Byte) : Statement (.staZp z) := of_byte 0x85 rfl rfl rfl rfl
theorem stxZp (z : Byte) : Statement (.stxZp z) := of_byte 0x86 rfl rfl rfl rfl
theorem saxZp (z : Byte) : Statement (.saxZp z) := of_byte 0x87 rfl rfl rfl rfl
theorem nopStarImm89 (v : Byte) : Statement (.nopStarImm89 v) := of_byte 0x89 rfl rfl rfl rfl
theorem aneImm (v : Byte) : Statement (.aneImm v) := of_byte 0x8B rfl rfl rfl rfl
theorem styAbs (a : Word) : Statement (.styAbs a) := of_word 0x8C rfl rfl rfl rfl
theorem staAbs (a : Word) : Statement (.staAbs a) := of_word 0x8D rfl rfl rfl rfl
theorem stxAbs (a : Word) : Statement (.stxAbs a) := of_word 0x8E rfl rfl rfl rfl
theorem saxAbs (a : Word) : Statement (.saxAbs a) := of_word 0x8F rfl rfl rfl rfl
theorem bcc (d : Int) : Statement (.bcc d) := of_disp 0x90 rfl rfl rfl rfl
theorem staIzy (z : Byte) : Statement (.staIzy z) := of_byte 0x91 rfl rfl rfl rfl
theorem shaIzy (z : Byte) : Statement (.shaIzy z) := of_byte 0x93 rfl rfl rfl rfl
theorem styZpx (z : Byte) : Statement (.styZpx z) := of_byte 0x94 rfl rfl rfl rfl
theorem staZpx (z : Byte) : Statement (.staZpx z) := of_byte 0x95 rfl rfl rfl rfl
theorem stxZpy (z : Byte) : Statement (.stxZpy z) := of_byte 0x96 rfl rfl rfl rfl
theorem saxZpy (z : Byte) : Statement (.saxZpy z) := of_byte 0x97 rfl rfl rfl rfl
theorem staAby (a : Word) : Statement (.staAby a) := of_word 0x99 rfl rfl rfl rfl
theorem tasAby (a : Word) : Statement (.tasAby a) := of_word 0x9B rfl rfl rfl rfl
theorem shyAbx (a : Word) : Statement (.shyAbx a) := of_word 0x9C rfl rfl rfl rfl
theorem staAbx (a : Word) : Statement (.staAbx a) := of_word 0x9D rfl rfl rfl rfl
theorem shxAby (a : Word) : Statement (.shxAby a) := of_word 0x9E rfl rfl rfl rfl
theorem shaAby (a : Word) : Statement (.shaAby a) := of_word 0x9F rfl rfl rfl rfl
theorem ldyImm (v : Byte) : Statement (.ldyImm v) := of_byte 0xA0 rfl rfl rfl rfl
theorem ldaIzx (z : Byte) : Statement (.ldaIzx z) := of_byte 0xA1 rfl rfl rfl rfl
theorem ldxImm (v : Byte) : Statement (.ldxImm v) := of_byte 0xA2 rfl rfl rfl rfl
theorem laxIzx (z : Byte) : Statement (.laxIzx z) := of_byte 0xA3 rfl rfl rfl rfl
theorem ldyZp (z : Byte) : Statement (.ldyZp z) := of_byte 0xA4 rfl rfl rfl rfl
theorem ldaZp (z : Byte) : Statement (.ldaZp z) := of_byte 0xA5 rfl rfl rfl rfl
theorem ldxZp (z : Byte) : Statement (.ldxZp z) := of_byte 0xA6 rfl rfl rfl rfl
theorem laxZp (z : Byte) : Statement (.laxZp z) := of_byte 0xA7 rfl rfl rfl rfl
theorem ldaImm (v : Byte) : Statement (.ldaImm v) := of_byte 0xA9 rfl rfl rfl rfl
theorem lxaImm (v : Byte) : Statement (.lxaImm v) := of_byte 0xAB rfl rfl rfl rfl
theorem ldyAbs (a : Word) : Statement (.ldyAbs a) := of_word 0xAC rfl rfl rfl rfl
theorem ldaAbs (a : Word) : Statement (.ldaAbs a) := of_word 0xAD rfl rfl rfl rfl
theorem ldxAbs (a : Word) : Statement (.ldxAbs a) := of_word 0xAE rfl rfl rfl rfl
theorem laxAbs (a : Word) : Statement (.laxAbs a) := of_word 0xAF rfl rfl rfl rfl
theorem bcs (d : Int) : Statement (.bcs d) := of_disp 0xB0 rfl rfl rfl rfl
theorem ldaIzy (z : Byte) : Statement (.ldaIzy z) := of_byte 0xB1 rfl rfl rfl rfl
theorem laxIzy (z : Byte) : Statement (.laxIzy z) := of_byte 0xB3 rfl rfl rfl rfl
theorem ldyZpx (z : Byte) : Statement (.ldyZpx z) := of_byte 0xB4 rfl rfl rfl rfl
theorem ldaZpx (z : Byte) : Statement (.ldaZpx z) := of_byte 0xB5 rfl rfl rfl rfl
theorem ldxZpy (z : Byte) : Statement (.ldxZpy z) := of_byte 0xB6 rfl rfl rfl rfl
theorem laxZpy (z : Byte) : Statement (.laxZpy z) := of_byte 0xB7 rfl rfl rfl rfl
theorem ldaAby (a : Word) : Statement (.ldaAby a) := of_word 0xB9 rfl rfl rfl rfl
theorem lasAby (a : Word) : Statement (.lasAby a) := of_word 0xBB rfl rfl rfl rfl
theorem ldyAbx (a : Word) : Statement (.ldyAbx a) := of_word 0xBC rfl rfl rfl rfl
theorem ldaAbx (a : Word) : Statement (.ldaAbx a) := of_word 0xBD rfl rfl rfl rfl
theorem ldxAby (a : Word) : Statement (.ldxAby a) := of_word 0xBE rfl rfl rfl rfl
theorem laxAby (a : Word) : Statement (.laxAby a) := of_word 0xBF rfl rfl rfl rfl
theorem cpyImm (v : Byte) : Statement (.cpyImm v) := of_byte 0xC0 rfl rfl rfl rfl
theorem cmpIzx (z : Byte) : Statement (.cmpIzx z) := of_byte 0xC1 rfl rfl rfl rfl
theorem nopStarImmC2 (v : Byte) : Statement (.nopStarImmC2 v) := of_byte 0xC2 rfl rfl rfl rfl
theorem dcpIzx (z : Byte) : Statement (.dcpIzx z) := of_byte 0xC3 rfl rfl rfl rfl
theorem cpyZp (z : Byte) : Statement (.cpyZp z) := of_byte 0xC4 rfl rfl rfl rfl
theorem cmpZp (z : Byte) : Statement (.cmpZp z) := of_byte 0xC5 rfl rfl rfl rfl
theorem decZp (z : Byte) : Statement (.decZp z) := of_byte 0xC6 rfl rfl rfl rfl
theorem dcpZp (z : Byte) : Statement (.dcpZp z) := of_byte 0xC7 rfl rfl rfl rfl
theorem cmpImm (v : Byte) : Statement (.cmpImm v) := of_byte 0xC9 rfl rfl rfl rfl
theorem sbxImm (v : Byte) : Statement (.sbxImm v) := of_byte 0xCB rfl rfl rfl rfl
theorem cpyAbs (a : Word) : Statement (.cpyAbs a) := of_word 0xCC rfl rfl rfl rfl
theorem cmpAbs (a : Word) : Statement (.cmpAbs a) := of_word 0xCD rfl rfl rfl rfl
theorem decAbs (a : Word) : Statement (.decAbs a) := of_word 0xCE rfl rfl rfl rfl
theorem dcpAbs (a : Word) : Statement (.dcpAbs a) := of_word 0xCF rfl rfl rfl rfl
theorem bne (d : Int) : Statement (.bne d) := of_disp 0xD0 rfl rfl rfl rfl
theorem cmpIzy (z : Byte) : Statement (.cmpIzy z) := of_byte 0xD1 rfl rfl rfl rfl
theorem dcpIzy (z : Byte) : Statement (.dcpIzy z) := of_byte 0xD3 rfl rfl rfl rfl
theorem nopStarZpxD4 (z : Byte) : Statement (.nopStarZpxD4 z) := of_byte 0xD4 rfl rfl rfl rfl
theorem cmpZpx (z : Byte) : Statement (.cmpZpx z) := of_byte 0xD5 rfl rfl rfl rfl
theorem decZpx (z : Byte) : Statement (.decZpx z) := of_byte 0xD6 rfl rfl rfl rfl
theorem dcpZpx (z : Byte) : Statement (.dcpZpx z) := of_byte 0xD7 rfl rfl rfl rfl
theorem cmpAby (a : Word) : Statement (.cmpAby a) := of_word 0xD9 rfl rfl rfl rfl
theorem dcpAby (a : Word) : Statement (.dcpAby a) := of_word 0xDB rfl rfl rfl rfl
theorem nopStarAbxDC (a : Word) : Statement (.nopStarAbxDC a) := of_word 0xDC rfl rfl rfl rfl
theorem cmpAbx (a : Word) : Statement (.cmpAbx a) := of_word 0xDD rfl rfl rfl rfl
theorem decAbx (a : Word) : Statement (.decAbx a) := of_word 0xDE rfl rfl rfl rfl
theorem dcpAbx (a : Word) : Statement (.dcpAbx a) := of_word 0xDF rfl rfl rfl rfl
theorem cpxImm (v : Byte) : Statement (.cpxImm v) := of_byte 0xE0 rfl rfl rfl rfl
theorem sbcIzx (z : Byte) : Statement (.sbcIzx z) := of_byte 0xE1 rfl rfl rfl rfl
theorem nopStarImmE2 (v : Byte) : Statement (.nopStarImmE2 v) := of_byte 0xE2 rfl rfl rfl rfl
theorem isbIzx (z : Byte) : Statement (.isbIzx z) := of_byte 0xE3 rfl rfl rfl rfl
theorem cpxZp (z : Byte) : Statement (.cpxZp z) := of_byte 0xE4 rfl rfl rfl rfl
theorem sbcZp (z : Byte) : Statement (.sbcZp z) := of_byte 0xE5 rfl rfl rfl rfl
theorem incZp (z : Byte) : Statement (.incZp z) := of_byte 0xE6 rfl rfl rfl rfl
theorem isbZp (z : Byte) : Statement (.isbZp z) := of_byte 0xE7 rfl rfl rfl rfl
theorem sbcImm (v : Byte) : Statement (.sbcImm v) := of_byte 0xE9 rfl rfl rfl rfl
theorem usbcImm (v : Byte) : Statement (.usbcImm v) := of_byte 0xEB rfl rfl rfl rfl
theorem cpxAbs (a : Word) : Statement (.cpxAbs a) := of_word 0xEC rfl rfl rfl rfl
theorem sbcAbs (a : Word) : Statement (.sbcAbs a) := of_word 0xED rfl rfl rfl rfl
theorem incAbs (a : Word) : Statement (.incAbs a) := of_word 0xEE rfl rfl rfl rfl
theorem isbAbs (a : Word) : Statement (.isbAbs a) := of_word 0xEF rfl rfl rfl rfl
theorem beq (d : Int) : Statement (.beq d) := of_disp 0xF0 rfl rfl rfl rfl
theorem sbcIzy (z : Byte) : Statement (.sbcIzy z) := of_byte 0xF1 rfl rfl rfl rfl
theorem isbIzy (z : Byte) : Statement (.isbIzy z) := of_byte 0xF3 rfl rfl rfl rfl
theorem nopStarZpxF4 (z : Byte) : Statement (.nopStarZpxF4 z) := of_byte 0xF4 rfl rfl rfl rfl
theorem sbcZpx (z : Byte) : Statement (.sbcZpx z) := of_byte 0xF5 rfl rfl rfl rfl
theorem incZpx (z : Byte) : Statement (.incZpx z) := of_byte 0xF6 rfl rfl rfl rfl
theorem isbZpx (z : Byte) : Statement (.isbZpx z) := of_byte 0xF7 rfl rfl rfl rfl
theorem sbcAby (a : Word) : Statement (.sbcAby a) := of_word 0xF9 rfl rfl rfl rfl
theorem isbAby (a : Word) : Statement (.isbAby a) := of_word 0xFB rfl rfl rfl rfl
theorem nopStarAbxFC (a : Word) : Statement (.nopStarAbxFC a) := of_word 0xFC rfl rfl rfl rfl
theorem sbcAbx (a : Word) : Statement (.sbcAbx a) := of_word 0xFD rfl rfl rfl rfl
theorem incAbx (a : Word) : Statement (.incAbx a) := of_word 0xFE rfl rfl rfl rfl
theorem isbAbx (a : Word) : Statement (.isbAbx a) := of_word 0xFF rfl rfl rfl rfl
theorem jam02 : Statement (.jam02) := of_fixed 0x02 rfl rfl rfl
theorem php : Statement (.php) := of_fixed 0x08 rfl rfl rfl
theorem aslAcc : Statement (.aslAcc) := of_fixed 0x0A rfl rfl rfl
theorem jam12 : Statement (.jam12) := of_fixed 0x12 rfl rfl rfl
theorem clc : Statement (.clc) := of_fixed 0x18 rfl rfl rfl
theorem nopStar1A : Statement (.nopStar1A) := of_fixed 0x1A rfl rfl rfl
theorem jam22 : Statement (.jam22) := of_fixed 0x22 rfl rfl rfl
theorem plp : Statement (.plp) := of_fixed 0x28 rfl rfl rfl
theorem rolAcc : Statement (.rolAcc) := of_fixed 0x2A rfl rfl rfl
theorem jam32 : Statement (.jam32) := of_fixed 0x32 rfl rfl rfl
theorem sec : Statement (.sec) := of_fixed 0x38 rfl rfl rfl
theorem nopStar3A : Statement (.nopStar3A) := of_fixed 0x3A rfl rfl rfl
theorem rti : Statement (.rti) := of_fixed 0x40 rfl rfl rfl
theorem jam42 : Statement (.jam42) := of_fixed 0x42 rfl rfl rfl
theorem pha : Statement (.pha) := of_fixed 0x48 rfl rfl rfl
theorem lsrAcc : Statement (.lsrAcc) := of_fixed 0x4A rfl rfl rfl
theorem jam52 : Statement (.jam52) := of_fixed 0x52 rfl rfl rfl
theorem cli : Statement (.cli) := of_fixed 0x58 rfl rfl rfl
theorem nopStar5A : Statement (.nopStar5A) := of_fixed 0x5A rfl rfl rfl
theorem rts : Statement (.rts) := of_fixed 0x60 rfl rfl rfl
theorem jam62 : Statement (.jam62) := of_fixed 0x62 rfl rfl rfl
theorem pla : Statement (.pla) := of_fixed 0x68 rfl rfl rfl
theorem rorAcc : Statement (.rorAcc) := of_fixed 0x6A rfl rfl rfl
theorem jam72 : Statement (.jam72) := of_fixed 0x72 rfl rfl rfl
theorem sei : Statement (.sei) := of_fixed 0x78 rfl rfl rfl
theorem nopStar7A : Statement (.nopStar7A) := of_fixed 0x7A rfl rfl rfl
theorem dey : Statement (.dey) := of_fixed 0x88 rfl rfl rfl
theorem txa : Statement (.txa) := of_fixed 0x8A rfl rfl rfl
theorem jam92 : Statement (.jam92) := of_fixed 0x92 rfl rfl rfl
theorem tya : Statement (.tya) := of_fixed 0x98 rfl rfl rfl
theorem txs : Statement (.txs) := of_fixed 0x9A rfl rfl rfl
theorem tay : Statement (.tay) := of_fixed 0xA8 rfl rfl rfl
theorem tax : Statement (.tax) := of_fixed 0xAA rfl rfl rfl
theorem jamB2 : Statement (.jamB2) := of_fixed 0xB2 rfl rfl rfl
theorem clv : Statement (.clv) := of_fixed 0xB8 rfl rfl rfl
theorem tsx : Statement (.tsx) := of_fixed 0xBA rfl rfl rfl
theorem iny : Statement (.iny) := of_fixed 0xC8 rfl rfl rfl
theorem dex : Statement (.dex) := of_fixed 0xCA rfl rfl rfl
theorem jamD2 : Statement (.jamD2) := of_fixed 0xD2 rfl rfl rfl
theorem cld : Statement (.cld) := of_fixed 0xD8 rfl rfl rfl
theorem nopStarDA : Statement (.nopStarDA) := of_fixed 0xDA rfl rfl rfl
theorem inx : Statement (.inx) := of_fixed 0xE8 rfl rfl rfl
theorem nop : Statement (.nop) := of_fixed 0xEA rfl rfl rfl
theorem jamF2 : Statement (.jamF2) := of_fixed 0xF2 rfl rfl rfl
theorem sed : Statement (.sed) := of_fixed 0xF8 rfl rfl rfl
theorem nopStarFA : Statement (.nopStarFA) := of_fixed 0xFA rfl rfl rfl

end Sys2Proof.Laws.EncodingRow
end

