-- ==== Sys2Proof/Laws/Stack.lean ====
section
/-! SUPPORT. The stack operations, the interrupt entry and the return, as one state update each. -/

namespace Sys2Proof.Machine

theorem sp_sub_one (sp : Byte) : sp - 1 - 1 = sp - 2 := by bv_omega
theorem sp_sub_two (sp : Byte) : sp - 2 - 1 = sp - 3 := by bv_omega
theorem sp_add_one (sp : Byte) : sp + 1 + 1 = sp + 2 := by bv_omega
theorem sp_add_two (sp : Byte) : sp + 2 + 1 = sp + 3 := by bv_omega

/-- Memory after a 16-bit push (R91). -/
def wordPushed (m : Memory) (sp : Byte) (w : Word) : Memory :=
  (m.put (stackAddr sp).toNat (hiByte w)).put (stackAddr (sp - 1)).toNat (loByte w)

/-- Memory after an interrupt frame is pushed (R392, R324). -/
def framePushed (m : Memory) (sp : Byte) (ret : Word) (status : Byte) : Memory :=
  (wordPushed m sp ret).put (stackAddr (sp - 2)).toNat status

theorem pushWord_eq (w : Word) (s : State) : pushWord w s = (s.setMem (wordPushed s.mem s.sp w)).setSp (s.sp - 2) := by
  rw [← sp_sub_one]
  rfl

theorem pushFrame_eq (ret : Word) (status : Byte) (s : State) :
    pushFrame ret status s = (s.setMem (framePushed s.mem s.sp ret status)).setSp (s.sp - 3) := by
  rw [pushFrame, pushWord_eq, ← sp_sub_two]
  rfl

/-- A push leaves everything above the stack page alone. -/
theorem byteAt_put_stack (m : Memory) (sp v : Byte) {a : Nat} (h : 0x0200 ≤ a ∨ a < 0x0100) :
    (m.put (stackAddr sp).toNat v).byteAt a = m.byteAt a := by
  apply byteAt_put_ne
  rw [stackAddr_toNat]
  omega

theorem byteAt_framePushed (m : Memory) (sp : Byte) (ret : Word) (status : Byte) {a : Nat} (h : 0x0200 ≤ a ∨ a < 0x0100) :
    (framePushed m sp ret status).byteAt a = m.byteAt a := by
  simp only [framePushed, wordPushed, byteAt_put_stack _ _ _ h]

/-- Taking an interrupt: the frame, SP, I, and PC from the vector; nothing else. -/
theorem enterInterrupt_eq (ret : Word) (status : Byte) {vector : Word} (h : 0x8000 ≤ vector.toNat) (s : State) :
    enterInterrupt ret status vector s =
      (((s.setMem (framePushed s.mem s.sp ret status)).setSp (s.sp - 3)).setFlag .i true).setPc
        (mkWord (s.mem.byteAt (nextInPage vector).toNat) (s.mem.byteAt vector.toNat)) := by
  have h' : 0x8000 ≤ (nextInPage vector).toNat := by
    rw [nextInPage_toNat]
    split <;> omega
  unfold enterInterrupt
  rw [read16_of_high h, pushFrame_eq]
  simp only [State.setFlag, State.setSr_mem, State.setSp_mem, State.setMem_mem]
  rw [byteAt_framePushed _ _ _ _ (.inl (by omega)), byteAt_framePushed _ _ _ _ (.inl (by omega))]

theorem pullWord_eq (s : State) :
    pullWord s =
      (mkWord (s.mem.byteAt (0x0100 + (s.sp + 2).toNat)) (s.mem.byteAt (0x0100 + (s.sp + 1).toNat)), s.setSp (s.sp + 2)) := by
  simp only [pullWord, pull_eq, State.setSp_mem, State.setSp_sp, sp_add_one]
  rfl

/-- The return from an interrupt: status, PC and SP from the stack; nothing else. -/
theorem returnFromInterrupt_eq (s : State) :
    returnFromInterrupt s =
      ((s.setSp (s.sp + 3)).setSr (statusFromStack (s.mem.byteAt (0x0100 + (s.sp + 1).toNat)))).setPc
        (mkWord (s.mem.byteAt (0x0100 + (s.sp + 3).toNat)) (s.mem.byteAt (0x0100 + (s.sp + 2).toNat))) := by
  have e : s.sp + 1 + 2 = s.sp + 3 := by bv_omega
  simp only [returnFromInterrupt, pullWord_eq, pull_eq, State.setSr_mem, State.setSr_sp, State.setSp_mem, State.setSp_sp,
    sp_add_one, e]
  rfl

end Sys2Proof.Machine
end

