-- ==== Sys2Proof/Laws/Runs.lean ====
section
/-! SUPPORT. From the state an operation leaves to `RunsTo`. -/

namespace Sys2Proof.Machine

theorem finishInstr_sr (b : Bool) (s : State) :
    (finishInstr b s).sr = (if b then srWith (srWith s.sr .n s.a.msb) .z (s.a == 0) else s.sr) ||| unusedMask := by
  cases b <;> rfl

/-- The end of an instruction writes SR only. -/
theorem finishInstr_eq (b : Bool) (s : State) : finishInstr b s = s.setSr (finishInstr b s).sr := by
  cases b <;> rfl

/-- Every instruction ends with bit 5 of SR set. -/
theorem finishInstr_bit5 (b : Bool) (s : State) : (finishInstr b s).sr.getLsbD 5 = true := by
  rw [finishInstr_sr]
  exact or_unused_bit5 _

/-- An instruction that completes, taken apart. -/
theorem exec_next {i : Instr} {s t : State} (h : exec i s = .next t) :
    refusalOf i.mnemonic s = none ∧
      ∃ u, performOf i.form s.pc (s.setPc (nextPc i s)) = .next u ∧ t = finishInstr i.form.flagPass u := by
  cases hr : refusalOf i.mnemonic s with
  | some r =>
    rw [exec_of_refusal hr] at h
    cases h
  | none =>
    rw [exec_of_no_refusal hr] at h
    refine ⟨rfl, ?_⟩
    revert h
    generalize performOf _ _ _ = q
    cases q with
    | next u =>
      intro h
      cases h
      exact ⟨u, rfl, rfl⟩
    | fault f => intro h; cases h
    | refused r => intro h; cases h

/-- A documented or listed opcode is never refused; BRK and the unlisted ones have their parameter. -/
theorem no_refusal_of_form {i : Instr} {m : Mnemonic} {o : Operand} (hi : i.form = ⟨m, o⟩) (s : State)
    (hb : m ≠ .brk := by decide) (hu : m.opClass ≠ .undocumentedUnlisted := by decide) :
    refusalOf i.mnemonic s = none := by
  unfold Instr.mnemonic
  rw [hi]
  exact refusalOf_none (fun h => absurd h hb) (fun h => absurd h hu)

/-- An operation whose outcome is `t` but for SR and PC makes its instruction run to `t`. -/
theorem runsTo_of_performOf {i : Instr} {s t u : State} {pc : Word} {writes : List (Flag × Bool)}
    (hr : refusalOf i.mnemonic s = none) (hp : performOf i.form s.pc (s.setPc (nextPc i s)) = .next u)
    (hu : u = (t.setSr u.sr).setPc pc) (hs : StatusAfter t.sr (finishInstr i.form.flagPass u).sr writes) :
    RunsTo i s t pc writes := by
  refine ⟨_, ?_, hs⟩
  rw [exec_of_no_refusal hr, hp]
  simp only [andThen]
  rw [finishInstr_eq, hu]
  rfl

/-- An operation that makes a bus write from `s'`, PC and SR perhaps already updated, and the write faults: its instruction ends in
the same fault, and the state it leaves is the write's but for PC and SR. -/
theorem exec_fault_of_busWrite {i : Instr} {s s' : State} {e : Word} {v : Byte} {pc : Word} {sr : Byte} {f : Fault}
    {k : State → Result} (hr : refusalOf i.mnemonic s = none)
    (hp : performOf i.form s.pc (s.setPc (nextPc i s)) = andThen (busWrite e v ((s'.setPc pc).setSr sr)) k)
    (hf : busWrite e v s' = .fault f) :
    ∃ r bank w left, f = .mapperBankOutOfRange r bank w ∧ exec i s = .fault (.mapperBankOutOfRange r bank left) ∧
      left = { w with pc := left.pc, sr := left.sr } := by
  obtain ⟨-, bank, rfl, -⟩ := busWrite_fault hf
  refine ⟨_, bank, _, ((committed (mapperRegAt e) v s').setPc pc).setSr sr, rfl, ?_, rfl⟩
  have update : RegUpdate fun t => (t.setPc pc).setSr sr := (regUpdate_setSr sr).comp (regUpdate_setPc pc)
  rw [exec_of_no_refusal hr, hp, busWrite_regUpdate update, hf]
  rfl

end Sys2Proof.Machine
end

