-- ==== Sys2Proof/Laws/Step.lean ====
section
/-! SUPPORT. The step: what a fetch answers, what the harness does around an instruction, and what a step keeps. -/

namespace Sys2Proof.Machine

/-! ## Fetch -/

theorem fetchByte_of_fetchable {a : Word} (h : Fetchable a) (s : State) : fetchByte a s = .next (s.mem.byteAt a.toNat) := by
  simp [fetchByte, h]

theorem fetchByte_of_not_fetchable {a : Word} (h : ¬Fetchable a) (s : State) :
    fetchByte a s = .fault (.fetchFromMMIO a s) := by
  simp [fetchByte, h]

theorem fetchByte_cases (a : Word) (s : State) :
    fetchByte a s = .next (s.mem.byteAt a.toNat) ∨ ¬Fetchable a ∧ fetchByte a s = .fault (.fetchFromMMIO a s) := by
  by_cases h : Fetchable a
  · exact .inl (fetchByte_of_fetchable h s)
  · exact .inr ⟨h, fetchByte_of_not_fetchable h s⟩

/-- Everything a fetch can answer. -/
theorem fetchInstr_cases (s : State) :
    (∃ i, fetchInstr s = .next i ∧ refusalOf i.mnemonic s = none) ∨
    (∃ a, ¬Fetchable a ∧ fetchInstr s = .fault (.fetchFromMMIO a s)) ∨
    ∃ m r, refusalOf m s = some r ∧ fetchInstr s = .refused r := by
  unfold fetchInstr
  rcases fetchByte_cases s.pc s with e | ⟨hf, e⟩
  · rw [e]
    simp only [andThen]
    generalize s.mem.byteAt s.pc.toNat = op
    cases hr : refusalOf (shapeOf op).mnemonic s with
    | some r => exact .inr (.inr ⟨_, _, hr, rfl⟩)
    | none =>
      have done : ∀ b1 b2, refusalOf ((shapeOf op).instr b1 b2).mnemonic s = none := fun b1 b2 => by
        rw [(shapeOf_instr op b1 b2).1, hr]
      simp only
      generalize (shapeOf op).operandBytes = n
      rcases n with _ | _ | n
      · exact .inl ⟨_, rfl, done _ _⟩
      · rcases fetchByte_cases (s.pc + 1) s with e | ⟨hf, e⟩ <;> rw [e]
        · exact .inl ⟨_, rfl, done _ _⟩
        · exact .inr (.inl ⟨_, hf, rfl⟩)
      · rcases fetchByte_cases (s.pc + 1) s with e | ⟨hf, e⟩ <;> rw [e]
        · rcases fetchByte_cases (s.pc + 2) s with e | ⟨hf, e⟩ <;> simp only [e]
          · exact .inl ⟨_, rfl, done _ _⟩
          · exact .inr (.inl ⟨_, hf, rfl⟩)
        · exact .inr (.inl ⟨_, hf, rfl⟩)
  · rw [e]
    exact .inr (.inl ⟨_, hf, rfl⟩)

/-- The bytes at PC decode to `i` and can be fetched: the fetch answers `i`, or the refusal decided from its opcode. -/
theorem fetchInstr_of_decode {t : State} {i : Instr} {rest : List Byte}
    (hd : decode [t.mem.byteAt t.pc.toNat, t.mem.byteAt (t.pc + 1).toNat, t.mem.byteAt (t.pc + 2).toNat] = .ok (i, rest))
    (hf : ∀ k, k < i.length → Fetchable (t.pc + BitVec.ofNat 16 k)) :
    fetchInstr t = match refusalOf i.mnemonic t with
      | some r => .refused r
      | none => .next i := by
  generalize hop : t.mem.byteAt t.pc.toNat = op at *
  generalize hb1 : t.mem.byteAt (t.pc + 1).toNat = b1 at *
  generalize hb2 : t.mem.byteAt (t.pc + 2).toNat = b2 at *
  have hle := operandBytes_le op
  obtain ⟨hmn, hln⟩ : i.mnemonic = (shapeOf op).mnemonic ∧ i.length = (shapeOf op).operandBytes + 1 := by
    obtain ⟨op', c1, c2, rfl, hb⟩ := decode_ok hd
    obtain rfl : op = op' := by simpa using (List.cons.inj hb).1
    exact ⟨(shapeOf_instr op c1 c2).1, (shapeOf_instr op c1 c2).2.1⟩
  unfold fetchInstr
  have h0 := hf 0 (by omega)
  rw [fetchByte_of_fetchable (by simpa using h0)]
  simp only [andThen, hop, hmn]
  cases hr : refusalOf (shapeOf op).mnemonic t with
  | some r => rfl
  | none =>
    unfold decode at hd
    simp only at hd ⊢
    revert hd hln
    generalize (shapeOf op).operandBytes = n at *
    intro hd hln
    interval_cases n
    · simp only [Except.ok.injEq, Prod.mk.injEq] at hd
      simp only [hd.1]
    · have h1 := hf 1 (by omega)
      rw [fetchByte_of_fetchable (by simpa using h1)]
      simp only [Except.ok.injEq, Prod.mk.injEq] at hd
      simp only [hb1, hd.1]
    · have h1 := hf 1 (by omega)
      have h2 := hf 2 (by omega)
      rw [fetchByte_of_fetchable (by simpa using h1), fetchByte_of_fetchable (by simpa using h2)]
      simp only [Except.ok.injEq, Prod.mk.injEq] at hd
      simp only [hb1, hb2, hd.1]

/-! ## The harness -/

/-- The start of a step, as one update per case (R390, R396). -/
theorem serviceBlank_eq (s : State) :
    serviceBlank s =
      if s.video.blank = true then
        videoSetBlank false
          (if gateOpen s.params.nmiGate (s.flag .i) = true then enterNmi (videoCall .getBlank s) else videoCall .getBlank s)
      else videoCall .getBlank s := rfl

/-- Once a mapper is installed, a step is the blank, the fetch, the instruction and the end. -/
theorem step_loaded {s : State} (h : s.mapper ≠ .none) :
    step s = andThen (fetchInstr (serviceBlank s)) fun i =>
      andThen (exec i (serviceBlank s)) fun u => .next (endStep u) := by
  unfold step
  split
  · rename_i e
    exact absurd e h
  · rfl
  · rfl

/-- A step that completes, taken apart. -/
theorem step_next {s t : State} (h : step s = .next t) :
    s.mapper ≠ .none ∧ ∃ i u, fetchInstr (serviceBlank s) = .next i ∧ exec i (serviceBlank s) = .next u ∧ t = endStep u := by
  have hm : s.mapper ≠ .none := by
    intro e
    simp [step, e] at h
  rw [step_loaded hm] at h
  refine ⟨hm, ?_⟩
  cases e : fetchInstr (serviceBlank s) with
  | next i =>
    rw [e] at h
    simp only [andThen] at h
    cases e' : exec i (serviceBlank s) with
    | next u =>
      rw [e'] at h
      cases h
      exact ⟨i, u, rfl, e', rfl⟩
    | fault f => rw [e'] at h; cases h
    | refused r => rw [e'] at h; cases h
  | fault f => rw [e] at h; cases h
  | refused r => rw [e] at h; cases h

/-- The end of a step, as one update (R390, R425). -/
theorem endStep_eq (u : State) :
    endStep u =
      let vblank := periodElapsed (u.icount + 1) u.params.vblankPeriod
      let ready := periodElapsed (u.icount + 1) u.params.renderPeriod
      { u with
        icount := u.icount + 1
        returns := ready :: u.returns
        video := { u.video with
          blank := vblank || u.video.blank
          calls := (if ready then [.render u.frameBuffer] else []) ++ (if vblank then [.setBlank true] else []) ++
            u.video.calls } } := by
  unfold endStep
  simp only
  generalize periodElapsed _ u.params.vblankPeriod = vblank
  generalize periodElapsed _ u.params.renderPeriod = ready
  cases vblank <;> cases ready <;> rfl

theorem of_ite {α : Type} {P : α → Prop} {c : Prop} [Decidable c] {a b : α} (ha : P a) (hb : P b) :
    P (if c then a else b) := by
  split
  · exact ha
  · exact hb

/-- What the harness does besides running an instruction keeps `P` too. -/
structure StepClosed (P : State → Prop) : Prop extends Closed P where
  icount : ∀ {s} v, P s → P (s.setIcount v)
  returns : ∀ {s} v, P s → P (s.setReturns v)

namespace StepClosed

variable {P : State → Prop} (hP : StepClosed P)
include hP

theorem enterNmi {s : State} (h : P s) : P (enterNmi s) := hP.icount _ (hP.enterInterrupt _ _ _ h)

theorem serviceBlank {s : State} (h : P s) : P (serviceBlank s) := by
  have h' : P (videoCall .getBlank s) := hP.video _ h
  exact of_ite (hP.video _ (of_ite (hP.enterNmi h') h')) h'

theorem endStep {s : State} (h : P s) : P (endStep s) := by
  have h1 : P (s.setIcount (s.icount + 1)) := hP.icount _ h
  have h2 : ∀ b : Bool, P (if b = true then videoSetBlank true (s.setIcount (s.icount + 1))
      else s.setIcount (s.icount + 1)) := fun b => of_ite (hP.video _ h1) h1
  exact hP.returns _ (of_ite (hP.video _ (h2 _)) (h2 _))

/-- Every step keeps `P`. -/
theorem step {s t : State} (h : P s) (hs : step s = .next t) : P t := by
  obtain ⟨-, i, u, -, e, rfl⟩ := step_next hs
  have := hP.toClosed.exec i (hP.serviceBlank h)
  rw [e] at this
  exact hP.endStep this

end StepClosed

end Sys2Proof.Machine
end

