-- ==== Sys2Proof/Tests/Slice0.lean ====
section
/-! SUPPORT. The model's own tests: the WellFormed smoke test, decoding, the vectors of spec 95_test_vectors, and a witness for the
hypotheses of every obligation. -/

namespace Sys2Proof.Tests

open Sys2Proof Sys2Proof.Machine

/-! ## Helpers -/

/-- The default start state of 95_test_vectors. -/
def boot : State := { State.reset with sp := 0xFD, sr := 0x24, pc := 0x0200, mapper := .noMapper }

/-- One instruction by R170, not a harness step. -/
def run1 (s : State) : Result := andThen (fetchInstr s) fun i => exec i s

/-- Two instructions. -/
def run2 (s : State) : Result := andThen (run1 s) run1

/-- What a vector lists: A, X, Y, SP, SR, then PC, the memory, the video-unit calls. -/
structure Seen where
  regs  : List Byte
  pc    : Word
  mem   : Memory
  calls : List VideoCall
deriving DecidableEq, Repr

/-- What a vector lists, of a result that has a next state. -/
def seen : Result → Option Seen
  | .next t => some ⟨[t.a, t.x, t.y, t.sp, t.sr], t.pc, t.mem, t.video.calls⟩
  | .fault _ => none
  | .refused _ => none

/-- The next state of a result that has one. -/
def stateOf : Result → State
  | .next t => t
  | .fault _ => State.reset
  | .refused _ => State.reset

/-! ## Well-formedness: the one check, a displacement out of range, is refused -/

/-- R144: +128 is no displacement. -/
theorem test_wellFormed_refuses_128 : (Instr.bne 128).wellFormed = false := by decide
/-- R144: -129 is no displacement. -/
theorem test_wellFormed_refuses_minus129 : (Instr.bpl (-129)).wellFormed = false := by decide
/-- R144: the ends of the range are accepted. -/
theorem test_wellFormed_accepts_ends : (Instr.bne 127).wellFormed = true ∧ (Instr.bne (-128)).wellFormed = true := by decide

/-! ## Decoding: words written out from R145's map, R140 and R144 -/

/-- Row 0x of R145's map. -/
theorem test_decode_row0 :
    decode [0x00, 0x4B] = .ok (.brk 0x4B, []) ∧
    decode [0x01, 0x30] = .ok (.oraIzx 0x30, []) ∧
    decode [0x02] = .ok (.jam02, []) ∧
    decode [0x03, 0x7A] = .ok (.sloIzx 0x7A, []) ∧
    decode [0x04, 0x9F] = .ok (.nopStarZp04 0x9F, []) ∧
    decode [0x05, 0xC4] = .ok (.oraZp 0xC4, []) ∧
    decode [0x06, 0xE9] = .ok (.aslZp 0xE9, []) ∧
    decode [0x07, 0x4E] = .ok (.sloZp 0x4E, []) ∧
    decode [0x08] = .ok (.php, []) ∧
    decode [0x09, 0x58] = .ok (.oraImm 0x58, []) ∧
    decode [0x0A] = .ok (.aslAcc, []) ∧
    decode [0x0B, 0xA2] = .ok (.ancImm0B 0xA2, []) ∧
    decode [0x0C, 0xC7, 0x83] = .ok (.nopStarAbs 0x83C7, []) ∧
    decode [0x0D, 0xEC, 0xB8] = .ok (.oraAbs 0xB8EC, []) ∧
    decode [0x0E, 0x11, 0xED] = .ok (.aslAbs 0xED11, []) ∧
    decode [0x0F, 0x36, 0x22] = .ok (.sloAbs 0x2236, []) :=
  ⟨rfl, rfl, rfl, rfl, rfl, rfl, rfl, rfl, rfl, rfl, rfl, rfl, rfl, rfl, rfl, rfl⟩

/-- Row 1x of R145's map. -/
theorem test_decode_row1 :
    decode [0x10, 0x80] = .ok (.bpl (-128), []) ∧
    decode [0x11, 0x80] = .ok (.oraIzy 0x80, []) ∧
    decode [0x12] = .ok (.jam12, []) ∧
    decode [0x13, 0xCA] = .ok (.sloIzy 0xCA, []) ∧
    decode [0x14, 0xEF] = .ok (.nopStarZpx14 0xEF, []) ∧
    decode [0x15, 0x14] = .ok (.oraZpx 0x14, []) ∧
    decode [0x16, 0x39] = .ok (.aslZpx 0x39, []) ∧
    decode [0x17, 0x5E] = .ok (.sloZpx 0x5E, []) ∧
    decode [0x18] = .ok (.clc, []) ∧
    decode [0x19, 0xA8, 0x34] = .ok (.oraAby 0x34A8, []) ∧
    decode [0x1A] = .ok (.nopStar1A, []) ∧
    decode [0x1B, 0xF2, 0x9E] = .ok (.sloAby 0x9EF2, []) ∧
    decode [0x1C, 0x17, 0xD3] = .ok (.nopStarAbx1C 0xD317, []) ∧
    decode [0x1D, 0x3C, 0x18] = .ok (.oraAbx 0x183C, []) ∧
    decode [0x1E, 0x61, 0x3D] = .ok (.aslAbx 0x3D61, []) ∧
    decode [0x1F, 0x86, 0x72] = .ok (.sloAbx 0x7286, []) :=
  ⟨rfl, rfl, rfl, rfl, rfl, rfl, rfl, rfl, rfl, rfl, rfl, rfl, rfl, rfl, rfl, rfl⟩

/-- Row 2x of R145's map. -/
theorem test_decode_row2 :
    decode [0x20, 0xAB, 0xA7] = .ok (.jsrAbs 0xA7AB, []) ∧
    decode [0x21, 0xD0] = .ok (.andIzx 0xD0, []) ∧
    decode [0x22] = .ok (.jam22, []) ∧
    decode [0x23, 0x1A] = .ok (.rlaIzx 0x1A, []) ∧
    decode [0x24, 0x3F] = .ok (.bitZp 0x3F, []) ∧
    decode [0x25, 0x64] = .ok (.andZp 0x64, []) ∧
    decode [0x26, 0x89] = .ok (.rolZp 0x89, []) ∧
    decode [0x27, 0xAE] = .ok (.rlaZp 0xAE, []) ∧
    decode [0x28] = .ok (.plp, []) ∧
    decode [0x29, 0xF8] = .ok (.andImm 0xF8, []) ∧
    decode [0x2A] = .ok (.rolAcc, []) ∧
    decode [0x2B, 0x42] = .ok (.ancImm2B 0x42, []) ∧
    decode [0x2C, 0x67, 0x23] = .ok (.bitAbs 0x2367, []) ∧
    decode [0x2D, 0x8C, 0x58] = .ok (.andAbs 0x588C, []) ∧
    decode [0x2E, 0xB1, 0x8D] = .ok (.rolAbs 0x8DB1, []) ∧
    decode [0x2F, 0xD6, 0xC2] = .ok (.rlaAbs 0xC2D6, []) :=
  ⟨rfl, rfl, rfl, rfl, rfl, rfl, rfl, rfl, rfl, rfl, rfl, rfl, rfl, rfl, rfl, rfl⟩

/-- Row 3x of R145's map. -/
theorem test_decode_row3 :
    decode [0x30, 0xFE] = .ok (.bmi (-2), []) ∧
    decode [0x31, 0x20] = .ok (.andIzy 0x20, []) ∧
    decode [0x32] = .ok (.jam32, []) ∧
    decode [0x33, 0x6A] = .ok (.rlaIzy 0x6A, []) ∧
    decode [0x34, 0x8F] = .ok (.nopStarZpx34 0x8F, []) ∧
    decode [0x35, 0xB4] = .ok (.andZpx 0xB4, []) ∧
    decode [0x36, 0xD9] = .ok (.rolZpx 0xD9, []) ∧
    decode [0x37, 0xFE] = .ok (.rlaZpx 0xFE, []) ∧
    decode [0x38] = .ok (.sec, []) ∧
    decode [0x39, 0x48, 0xD4] = .ok (.andAby 0xD448, []) ∧
    decode [0x3A] = .ok (.nopStar3A, []) ∧
    decode [0x3B, 0x92, 0x3E] = .ok (.rlaAby 0x3E92, []) ∧
    decode [0x3C, 0xB7, 0x73] = .ok (.nopStarAbx3C 0x73B7, []) ∧
    decode [0x3D, 0xDC, 0xA8] = .ok (.andAbx 0xA8DC, []) ∧
    decode [0x3E, 0x41, 0xDD] = .ok (.rolAbx 0xDD41, []) ∧
    decode [0x3F, 0x26, 0x12] = .ok (.rlaAbx 0x1226, []) :=
  ⟨rfl, rfl, rfl, rfl, rfl, rfl, rfl, rfl, rfl, rfl, rfl, rfl, rfl, rfl, rfl, rfl⟩

/-- Row 4x of R145's map. -/
theorem test_decode_row4 :
    decode [0x40] = .ok (.rti, []) ∧
    decode [0x41, 0x70] = .ok (.eorIzx 0x70, []) ∧
    decode [0x42] = .ok (.jam42, []) ∧
    decode [0x43, 0xBA] = .ok (.sreIzx 0xBA, []) ∧
    decode [0x44, 0xDF] = .ok (.nopStarZp44 0xDF, []) ∧
    decode [0x45, 0x44] = .ok (.eorZp 0x44, []) ∧
    decode [0x46, 0x29] = .ok (.lsrZp 0x29, []) ∧
    decode [0x47, 0x4E] = .ok (.sreZp 0x4E, []) ∧
    decode [0x48] = .ok (.pha, []) ∧
    decode [0x49, 0x98] = .ok (.eorImm 0x98, []) ∧
    decode [0x4A] = .ok (.lsrAcc, []) ∧
    decode [0x4B, 0xE2] = .ok (.alrImm 0xE2, []) ∧
    decode [0x4C, 0x47, 0xC3] = .ok (.jmpAbs 0xC347, []) ∧
    decode [0x4D, 0x2C, 0xF8] = .ok (.eorAbs 0xF82C, []) ∧
    decode [0x4E, 0x51, 0x2D] = .ok (.lsrAbs 0x2D51, []) ∧
    decode [0x4F, 0x76, 0x62] = .ok (.sreAbs 0x6276, []) :=
  ⟨rfl, rfl, rfl, rfl, rfl, rfl, rfl, rfl, rfl, rfl, rfl, rfl, rfl, rfl, rfl, rfl⟩

/-- Row 5x of R145's map. -/
theorem test_decode_row5 :
    decode [0x50, 0x7F] = .ok (.bvc 127, []) ∧
    decode [0x51, 0xC0] = .ok (.eorIzy 0xC0, []) ∧
    decode [0x52] = .ok (.jam52, []) ∧
    decode [0x53, 0x4A] = .ok (.sreIzy 0x4A, []) ∧
    decode [0x54, 0x2F] = .ok (.nopStarZpx54 0x2F, []) ∧
    decode [0x55, 0x54] = .ok (.eorZpx 0x54, []) ∧
    decode [0x56, 0x79] = .ok (.lsrZpx 0x79, []) ∧
    decode [0x57, 0x9E] = .ok (.sreZpx 0x9E, []) ∧
    decode [0x58] = .ok (.cli, []) ∧
    decode [0x59, 0xE8, 0x74] = .ok (.eorAby 0x74E8, []) ∧
    decode [0x5A] = .ok (.nopStar5A, []) ∧
    decode [0x5B, 0x32, 0xDE] = .ok (.sreAby 0xDE32, []) ∧
    decode [0x5C, 0x57, 0x13] = .ok (.nopStarAbx5C 0x1357, []) ∧
    decode [0x5D, 0x7C, 0x48] = .ok (.eorAbx 0x487C, []) ∧
    decode [0x5E, 0xA1, 0x7D] = .ok (.lsrAbx 0x7DA1, []) ∧
    decode [0x5F, 0xC6, 0xB2] = .ok (.sreAbx 0xB2C6, []) :=
  ⟨rfl, rfl, rfl, rfl, rfl, rfl, rfl, rfl, rfl, rfl, rfl, rfl, rfl, rfl, rfl, rfl⟩

/-- Row 6x of R145's map. -/
theorem test_decode_row6 :
    decode [0x60] = .ok (.rts, []) ∧
    decode [0x61, 0x10] = .ok (.adcIzx 0x10, []) ∧
    decode [0x62] = .ok (.jam62, []) ∧
    decode [0x63, 0x5A] = .ok (.rraIzx 0x5A, []) ∧
    decode [0x64, 0x7F] = .ok (.nopStarZp64 0x7F, []) ∧
    decode [0x65, 0xA4] = .ok (.adcZp 0xA4, []) ∧
    decode [0x66, 0xC9] = .ok (.rorZp 0xC9, []) ∧
    decode [0x67, 0xEE] = .ok (.rraZp 0xEE, []) ∧
    decode [0x68] = .ok (.pla, []) ∧
    decode [0x69, 0x38] = .ok (.adcImm 0x38, []) ∧
    decode [0x6A] = .ok (.rorAcc, []) ∧
    decode [0x6B, 0x82] = .ok (.arrImm 0x82, []) ∧
    decode [0x6C, 0xA7, 0x63] = .ok (.jmpInd 0x63A7, []) ∧
    decode [0x6D, 0xCC, 0x98] = .ok (.adcAbs 0x98CC, []) ∧
    decode [0x6E, 0xF1, 0xCD] = .ok (.rorAbs 0xCDF1, []) ∧
    decode [0x6F, 0x16, 0x12] = .ok (.rraAbs 0x1216, []) :=
  ⟨rfl, rfl, rfl, rfl, rfl, rfl, rfl, rfl, rfl, rfl, rfl, rfl, rfl, rfl, rfl, rfl⟩

/-- Row 7x of R145's map. -/
theorem test_decode_row7 :
    decode [0x70, 0x04] = .ok (.bvs 4, []) ∧
    decode [0x71, 0x60] = .ok (.adcIzy 0x60, []) ∧
    decode [0x72] = .ok (.jam72, []) ∧
    decode [0x73, 0xAA] = .ok (.rraIzy 0xAA, []) ∧
    decode [0x74, 0xCF] = .ok (.nopStarZpx74 0xCF, []) ∧
    decode [0x75, 0xF4] = .ok (.adcZpx 0xF4, []) ∧
    decode [0x76, 0x19] = .ok (.rorZpx 0x19, []) ∧
    decode [0x77, 0x3E] = .ok (.rraZpx 0x3E, []) ∧
    decode [0x78] = .ok (.sei, []) ∧
    decode [0x79, 0x88, 0x14] = .ok (.adcAby 0x1488, []) ∧
    decode [0x7A] = .ok (.nopStar7A, []) ∧
    decode [0x7B, 0xD2, 0x7E] = .ok (.rraAby 0x7ED2, []) ∧
    decode [0x7C, 0xF7, 0xB3] = .ok (.nopStarAbx7C 0xB3F7, []) ∧
    decode [0x7D, 0x1C, 0xE8] = .ok (.adcAbx 0xE81C, []) ∧
    decode [0x7E, 0x41, 0x1D] = .ok (.rorAbx 0x1D41, []) ∧
    decode [0x7F, 0x66, 0x52] = .ok (.rraAbx 0x5266, []) :=
  ⟨rfl, rfl, rfl, rfl, rfl, rfl, rfl, rfl, rfl, rfl, rfl, rfl, rfl, rfl, rfl, rfl⟩

/-- Row 8x of R145's map. -/
theorem test_decode_row8 :
    decode [0x80, 0x8B] = .ok (.nopStarImm80 0x8B, []) ∧
    decode [0x81, 0xB0] = .ok (.staIzx 0xB0, []) ∧
    decode [0x82, 0xD5] = .ok (.nopStarImm82 0xD5, []) ∧
    decode [0x83, 0xFA] = .ok (.saxIzx 0xFA, []) ∧
    decode [0x84, 0x1F] = .ok (.styZp 0x1F, []) ∧
    decode [0x85, 0x44] = .ok (.staZp 0x44, []) ∧
    decode [0x86, 0x69] = .ok (.stxZp 0x69, []) ∧
    decode [0x87, 0x8E] = .ok (.saxZp 0x8E, []) ∧
    decode [0x88] = .ok (.dey, []) ∧
    decode [0x89, 0xD8] = .ok (.nopStarImm89 0xD8, []) ∧
    decode [0x8A] = .ok (.txa, []) ∧
    decode [0x8B, 0x22] = .ok (.aneImm 0x22, []) ∧
    decode [0x8C, 0x47, 0x13] = .ok (.styAbs 0x1347, []) ∧
    decode [0x8D, 0x6C, 0x38] = .ok (.staAbs 0x386C, []) ∧
    decode [0x8E, 0x91, 0x6D] = .ok (.stxAbs 0x6D91, []) ∧
    decode [0x8F, 0xB6, 0xA2] = .ok (.saxAbs 0xA2B6, []) :=
  ⟨rfl, rfl, rfl, rfl, rfl, rfl, rfl, rfl, rfl, rfl, rfl, rfl, rfl, rfl, rfl, rfl⟩

/-- Row 9x of R145's map. -/
theorem test_decode_row9 :
    decode [0x90, 0x80] = .ok (.bcc (-128), []) ∧
    decode [0x91, 0x40] = .ok (.staIzy 0x40, []) ∧
    decode [0x92] = .ok (.jam92, []) ∧
    decode [0x93, 0x4A] = .ok (.shaIzy 0x4A, []) ∧
    decode [0x94, 0x6F] = .ok (.styZpx 0x6F, []) ∧
    decode [0x95, 0x94] = .ok (.staZpx 0x94, []) ∧
    decode [0x96, 0xB9] = .ok (.stxZpy 0xB9, []) ∧
    decode [0x97, 0xDE] = .ok (.saxZpy 0xDE, []) ∧
    decode [0x98] = .ok (.tya, []) ∧
    decode [0x99, 0x28, 0xB4] = .ok (.staAby 0xB428, []) ∧
    decode [0x9A] = .ok (.txs, []) ∧
    decode [0x9B, 0x72, 0x1E] = .ok (.tasAby 0x1E72, []) ∧
    decode [0x9C, 0x97, 0x53] = .ok (.shyAbx 0x5397, []) ∧
    decode [0x9D, 0xBC, 0x88] = .ok (.staAbx 0x88BC, []) ∧
    decode [0x9E, 0xE1, 0xBD] = .ok (.shxAby 0xBDE1, []) ∧
    decode [0x9F, 0x46, 0xF2] = .ok (.shaAby 0xF246, []) :=
  ⟨rfl, rfl, rfl, rfl, rfl, rfl, rfl, rfl, rfl, rfl, rfl, rfl, rfl, rfl, rfl, rfl⟩

/-- Row Ax of R145's map. -/
theorem test_decode_rowA :
    decode [0xA0, 0x2B] = .ok (.ldyImm 0x2B, []) ∧
    decode [0xA1, 0x50] = .ok (.ldaIzx 0x50, []) ∧
    decode [0xA2, 0x75] = .ok (.ldxImm 0x75, []) ∧
    decode [0xA3, 0x9A] = .ok (.laxIzx 0x9A, []) ∧
    decode [0xA4, 0xBF] = .ok (.ldyZp 0xBF, []) ∧
    decode [0xA5, 0xE4] = .ok (.ldaZp 0xE4, []) ∧
    decode [0xA6, 0x49] = .ok (.ldxZp 0x49, []) ∧
    decode [0xA7, 0x2E] = .ok (.laxZp 0x2E, []) ∧
    decode [0xA8] = .ok (.tay, []) ∧
    decode [0xA9, 0x78] = .ok (.ldaImm 0x78, []) ∧
    decode [0xAA] = .ok (.tax, []) ∧
    decode [0xAB, 0xC2] = .ok (.lxaImm 0xC2, []) ∧
    decode [0xAC, 0xE7, 0xA3] = .ok (.ldyAbs 0xA3E7, []) ∧
    decode [0xAD, 0x4C, 0xD8] = .ok (.ldaAbs 0xD84C, []) ∧
    decode [0xAE, 0x31, 0x1D] = .ok (.ldxAbs 0x1D31, []) ∧
    decode [0xAF, 0x56, 0x42] = .ok (.laxAbs 0x4256, []) :=
  ⟨rfl, rfl, rfl, rfl, rfl, rfl, rfl, rfl, rfl, rfl, rfl, rfl, rfl, rfl, rfl, rfl⟩

/-- Row Bx of R145's map. -/
theorem test_decode_rowB :
    decode [0xB0, 0xFE] = .ok (.bcs (-2), []) ∧
    decode [0xB1, 0xA0] = .ok (.ldaIzy 0xA0, []) ∧
    decode [0xB2] = .ok (.jamB2, []) ∧
    decode [0xB3, 0xEA] = .ok (.laxIzy 0xEA, []) ∧
    decode [0xB4, 0x4F] = .ok (.ldyZpx 0x4F, []) ∧
    decode [0xB5, 0x34] = .ok (.ldaZpx 0x34, []) ∧
    decode [0xB6, 0x59] = .ok (.ldxZpy 0x59, []) ∧
    decode [0xB7, 0x7E] = .ok (.laxZpy 0x7E, []) ∧
    decode [0xB8] = .ok (.clv, []) ∧
    decode [0xB9, 0xC8, 0x54] = .ok (.ldaAby 0x54C8, []) ∧
    decode [0xBA] = .ok (.tsx, []) ∧
    decode [0xBB, 0x12, 0xBE] = .ok (.lasAby 0xBE12, []) ∧
    decode [0xBC, 0x37, 0xF3] = .ok (.ldyAbx 0xF337, []) ∧
    decode [0xBD, 0x5C, 0x28] = .ok (.ldaAbx 0x285C, []) ∧
    decode [0xBE, 0x81, 0x5D] = .ok (.ldxAby 0x5D81, []) ∧
    decode [0xBF, 0xA6, 0x92] = .ok (.laxAby 0x92A6, []) :=
  ⟨rfl, rfl, rfl, rfl, rfl, rfl, rfl, rfl, rfl, rfl, rfl, rfl, rfl, rfl, rfl, rfl⟩

/-- Row Cx of R145's map. -/
theorem test_decode_rowC :
    decode [0xC0, 0xCB] = .ok (.cpyImm 0xCB, []) ∧
    decode [0xC1, 0xF0] = .ok (.cmpIzx 0xF0, []) ∧
    decode [0xC2, 0x15] = .ok (.nopStarImmC2 0x15, []) ∧
    decode [0xC3, 0x3A] = .ok (.dcpIzx 0x3A, []) ∧
    decode [0xC4, 0x5F] = .ok (.cpyZp 0x5F, []) ∧
    decode [0xC5, 0x84] = .ok (.cmpZp 0x84, []) ∧
    decode [0xC6, 0xA9] = .ok (.decZp 0xA9, []) ∧
    decode [0xC7, 0xCE] = .ok (.dcpZp 0xCE, []) ∧
    decode [0xC8] = .ok (.iny, []) ∧
    decode [0xC9, 0x18] = .ok (.cmpImm 0x18, []) ∧
    decode [0xCA] = .ok (.dex, []) ∧
    decode [0xCB, 0x62] = .ok (.sbxImm 0x62, []) ∧
    decode [0xCC, 0x87, 0x43] = .ok (.cpyAbs 0x4387, []) ∧
    decode [0xCD, 0xAC, 0x78] = .ok (.cmpAbs 0x78AC, []) ∧
    decode [0xCE, 0xD1, 0xAD] = .ok (.decAbs 0xADD1, []) ∧
    decode [0xCF, 0xF6, 0xE2] = .ok (.dcpAbs 0xE2F6, []) :=
  ⟨rfl, rfl, rfl, rfl, rfl, rfl, rfl, rfl, rfl, rfl, rfl, rfl, rfl, rfl, rfl, rfl⟩

/-- Row Dx of R145's map. -/
theorem test_decode_rowD :
    decode [0xD0, 0x7F] = .ok (.bne 127, []) ∧
    decode [0xD1, 0x40] = .ok (.cmpIzy 0x40, []) ∧
    decode [0xD2] = .ok (.jamD2, []) ∧
    decode [0xD3, 0x8A] = .ok (.dcpIzy 0x8A, []) ∧
    decode [0xD4, 0xAF] = .ok (.nopStarZpxD4 0xAF, []) ∧
    decode [0xD5, 0xD4] = .ok (.cmpZpx 0xD4, []) ∧
    decode [0xD6, 0xF9] = .ok (.decZpx 0xF9, []) ∧
    decode [0xD7, 0x1E] = .ok (.dcpZpx 0x1E, []) ∧
    decode [0xD8] = .ok (.cld, []) ∧
    decode [0xD9, 0x68, 0xF4] = .ok (.cmpAby 0xF468, []) ∧
    decode [0xDA] = .ok (.nopStarDA, []) ∧
    decode [0xDB, 0xB2, 0x5E] = .ok (.dcpAby 0x5EB2, []) ∧
    decode [0xDC, 0xD7, 0x93] = .ok (.nopStarAbxDC 0x93D7, []) ∧
    decode [0xDD, 0xFC, 0xC8] = .ok (.cmpAbx 0xC8FC, []) ∧
    decode [0xDE, 0x21, 0xFD] = .ok (.decAbx 0xFD21, []) ∧
    decode [0xDF, 0x46, 0x32] = .ok (.dcpAbx 0x3246, []) :=
  ⟨rfl, rfl, rfl, rfl, rfl, rfl, rfl, rfl, rfl, rfl, rfl, rfl, rfl, rfl, rfl, rfl⟩

/-- Row Ex of R145's map. -/
theorem test_decode_rowE :
    decode [0xE0, 0x6B] = .ok (.cpxImm 0x6B, []) ∧
    decode [0xE1, 0x90] = .ok (.sbcIzx 0x90, []) ∧
    decode [0xE2, 0xB5] = .ok (.nopStarImmE2 0xB5, []) ∧
    decode [0xE3, 0xDA] = .ok (.isbIzx 0xDA, []) ∧
    decode [0xE4, 0xFF] = .ok (.cpxZp 0xFF, []) ∧
    decode [0xE5, 0x24] = .ok (.sbcZp 0x24, []) ∧
    decode [0xE6, 0x49] = .ok (.incZp 0x49, []) ∧
    decode [0xE7, 0x6E] = .ok (.isbZp 0x6E, []) ∧
    decode [0xE8] = .ok (.inx, []) ∧
    decode [0xE9, 0xB8] = .ok (.sbcImm 0xB8, []) ∧
    decode [0xEA] = .ok (.nop, []) ∧
    decode [0xEB, 0x42] = .ok (.usbcImm 0x42, []) ∧
    decode [0xEC, 0x27, 0xE3] = .ok (.cpxAbs 0xE327, []) ∧
    decode [0xED, 0x4C, 0x18] = .ok (.sbcAbs 0x184C, []) ∧
    decode [0xEE, 0x71, 0x4D] = .ok (.incAbs 0x4D71, []) ∧
    decode [0xEF, 0x96, 0x82] = .ok (.isbAbs 0x8296, []) :=
  ⟨rfl, rfl, rfl, rfl, rfl, rfl, rfl, rfl, rfl, rfl, rfl, rfl, rfl, rfl, rfl, rfl⟩

/-- Row Fx of R145's map. -/
theorem test_decode_rowF :
    decode [0xF0, 0x04] = .ok (.beq 4, []) ∧
    decode [0xF1, 0xE0] = .ok (.sbcIzy 0xE0, []) ∧
    decode [0xF2] = .ok (.jamF2, []) ∧
    decode [0xF3, 0x2A] = .ok (.isbIzy 0x2A, []) ∧
    decode [0xF4, 0x4F] = .ok (.nopStarZpxF4 0x4F, []) ∧
    decode [0xF5, 0x74] = .ok (.sbcZpx 0x74, []) ∧
    decode [0xF6, 0x99] = .ok (.incZpx 0x99, []) ∧
    decode [0xF7, 0xBE] = .ok (.isbZpx 0xBE, []) ∧
    decode [0xF8] = .ok (.sed, []) ∧
    decode [0xF9, 0x48, 0x94] = .ok (.sbcAby 0x9448, []) ∧
    decode [0xFA] = .ok (.nopStarFA, []) ∧
    decode [0xFB, 0x52, 0xFE] = .ok (.isbAby 0xFE52, []) ∧
    decode [0xFC, 0x77, 0x33] = .ok (.nopStarAbxFC 0x3377, []) ∧
    decode [0xFD, 0x9C, 0x68] = .ok (.sbcAbx 0x689C, []) ∧
    decode [0xFE, 0xC1, 0x9D] = .ok (.incAbx 0x9DC1, []) ∧
    decode [0xFF, 0xE6, 0xD2] = .ok (.isbAbx 0xD2E6, []) :=
  ⟨rfl, rfl, rfl, rfl, rfl, rfl, rfl, rfl, rfl, rfl, rfl, rfl, rfl, rfl, rfl, rfl⟩

/-! ## The vectors of 95_test_vectors: registers, PC, the whole memory and the calls after one instruction -/

/-- V1, V2, V3: zero page, indexed, with its wrap. -/
theorem test_modes_zeroPage :
    seen (run1 { boot with mem := [(0x0010, 0x42), (0x0200, 0xA5), (0x0201, 0x10)] }) =
        some ⟨[0x42, 0x00, 0x00, 0xFD, 0x24], 0x0202, [(0x0010, 0x42), (0x0200, 0xA5), (0x0201, 0x10)], []⟩ ∧
    seen (run1 { boot with x := 0x20, mem := [(0x0010, 0x77), (0x0110, 0x11), (0x0200, 0xB5), (0x0201, 0xF0)] }) =
        some ⟨[0x77, 0x20, 0x00, 0xFD, 0x24], 0x0202, [(0x0010, 0x77), (0x0110, 0x11), (0x0200, 0xB5), (0x0201, 0xF0)], []⟩ ∧
    seen (run1 { boot with y := 0x11, mem := [(0x0001, 0x80), (0x0200, 0xB6), (0x0201, 0xF0)] }) =
        some ⟨[0x00, 0x80, 0x11, 0xFD, 0xA4], 0x0202, [(0x0001, 0x80), (0x0200, 0xB6), (0x0201, 0xF0)], []⟩ := by
  decide

/-- V4, V5, V6: absolute, indexed, with its wrap and a page crossing. -/
theorem test_modes_absolute :
    seen (run1 { boot with mem := [(0x0200, 0xAD), (0x0201, 0x34), (0x0202, 0x12)] }) =
        some ⟨[0x00, 0x00, 0x00, 0xFD, 0x26], 0x0203, [(0x0200, 0xAD), (0x0201, 0x34), (0x0202, 0x12)], []⟩ ∧
    seen (run1 { boot with x := 0x20, mem := [(0x0010, 0x5A), (0x0200, 0xBD), (0x0201, 0xF0), (0x0202, 0xFF)] }) =
        some ⟨[0x5A, 0x20, 0x00, 0xFD, 0x24], 0x0203, [(0x0010, 0x5A), (0x0200, 0xBD), (0x0201, 0xF0), (0x0202, 0xFF)], []⟩ ∧
    seen (run1 { boot with y := 0x20, mem := [(0x0200, 0xB9), (0x0201, 0xF0), (0x0202, 0x12), (0x1310, 0x99)] }) =
        some ⟨[0x99, 0x00, 0x20, 0xFD, 0xA4], 0x0203, [(0x0200, 0xB9), (0x0201, 0xF0), (0x0202, 0x12), (0x1310, 0x99)], []⟩ := by
  decide

/-- V7, V8, V9, V10: the two indirect modes and their wraps. -/
theorem test_modes_indirect :
    seen (run1 { boot with x := 0x01, mem := [(0x0000, 0x03), (0x0200, 0xA1), (0x0201, 0xFE), (0x0300, 0x3C)] }) =
        some ⟨[0x3C, 0x01, 0x00, 0xFD, 0x24], 0x0202, [(0x0000, 0x03), (0x0200, 0xA1), (0x0201, 0xFE), (0x0300, 0x3C)], []⟩ ∧
    seen (run1 { boot with x := 0xE4, mem := [(0x0005, 0x04), (0x0200, 0xA1), (0x0201, 0x20), (0x0400, 0x01)] }) =
        some ⟨[0x01, 0xE4, 0x00, 0xFD, 0x24], 0x0202, [(0x0005, 0x04), (0x0200, 0xA1), (0x0201, 0x20), (0x0400, 0x01)], []⟩ ∧
    seen (run1 { boot with y := 0x10, mem := [(0x0000, 0x02), (0x00FF, 0xF8), (0x0100, 0x07), (0x0200, 0xB1), (0x0201, 0xFF), (0x0308, 0x66)] }) =
        some ⟨[0x66, 0x00, 0x10, 0xFD, 0x24], 0x0202, [(0x0000, 0x02), (0x00FF, 0xF8), (0x0100, 0x07), (0x0200, 0xB1), (0x0201, 0xFF), (0x0308, 0x66)], []⟩ ∧
    seen (run1 { boot with y := 0x05, mem := [(0x0003, 0x81), (0x0040, 0xFE), (0x0041, 0xFF), (0x0200, 0xB1), (0x0201, 0x40)] }) =
        some ⟨[0x81, 0x00, 0x05, 0xFD, 0xA4], 0x0202, [(0x0003, 0x81), (0x0040, 0xFE), (0x0041, 0xFF), (0x0200, 0xB1), (0x0201, 0x40)], []⟩ := by
  decide

/-- V11: the page wrap of the indirect jump. -/
theorem test_jmpInd_pageWrap :
    seen (run1 { boot with mem := [(0x0200, 0x6C), (0x0201, 0xFF), (0x0202, 0x12), (0x1200, 0x12), (0x12FF, 0x34), (0x1300, 0x56)] }) =
        some ⟨[0x00, 0x00, 0x00, 0xFD, 0x24], 0x1234, [(0x0200, 0x6C), (0x0201, 0xFF), (0x0202, 0x12), (0x1200, 0x12), (0x12FF, 0x34), (0x1300, 0x56)], []⟩ := by
  decide

/-- V12: PC wraps at the top of memory. -/
theorem test_pc_wraps :
    seen (run1 { boot with pc := 0xFFFE, mem := [(0xFFFE, 0xA9), (0xFFFF, 0x05)] }) =
        some ⟨[0x05, 0x00, 0x00, 0xFD, 0x24], 0x0000, [(0xFFFE, 0xA9), (0xFFFF, 0x05)], []⟩ := by
  decide

/-- V20, V21: ORA. -/
theorem test_ora :
    seen (run1 { boot with a := 0xF0, mem := [(0x0200, 0x09), (0x0201, 0x0F)] }) =
        some ⟨[0xFF, 0x00, 0x00, 0xFD, 0xA4], 0x0202, [(0x0200, 0x09), (0x0201, 0x0F)], []⟩ ∧
    seen (run1 { boot with a := 0x00, mem := [(0x0200, 0x09)] }) =
        some ⟨[0x00, 0x00, 0x00, 0xFD, 0x26], 0x0202, [(0x0200, 0x09)], []⟩ := by
  decide

/-- V22: AND. -/
theorem test_and :
    seen (run1 { boot with a := 0xF0, mem := [(0x0200, 0x29), (0x0201, 0x0F)] }) =
        some ⟨[0x00, 0x00, 0x00, 0xFD, 0x26], 0x0202, [(0x0200, 0x29), (0x0201, 0x0F)], []⟩ := by
  decide

/-- V23: EOR. -/
theorem test_eor :
    seen (run1 { boot with a := 0x0F, mem := [(0x0200, 0x49), (0x0201, 0xFF)] }) =
        some ⟨[0xF0, 0x00, 0x00, 0xFD, 0xA4], 0x0202, [(0x0200, 0x49), (0x0201, 0xFF)], []⟩ := by
  decide

/-- V24, V25, V26, V27, V28: ADC. -/
theorem test_adc :
    seen (run1 { boot with a := 0x50, sr := 0x24, mem := [(0x0200, 0x69), (0x0201, 0x50)] }) =
        some ⟨[0xA0, 0x00, 0x00, 0xFD, 0xE4], 0x0202, [(0x0200, 0x69), (0x0201, 0x50)], []⟩ ∧
    seen (run1 { boot with a := 0xFF, sr := 0x24, mem := [(0x0200, 0x69), (0x0201, 0x01)] }) =
        some ⟨[0x00, 0x00, 0x00, 0xFD, 0x27], 0x0202, [(0x0200, 0x69), (0x0201, 0x01)], []⟩ ∧
    seen (run1 { boot with a := 0x7F, sr := 0x25, mem := [(0x0200, 0x69)] }) =
        some ⟨[0x80, 0x00, 0x00, 0xFD, 0xE4], 0x0202, [(0x0200, 0x69)], []⟩ ∧
    seen (run1 { boot with a := 0x80, sr := 0x24, mem := [(0x0200, 0x69), (0x0201, 0x80)] }) =
        some ⟨[0x00, 0x00, 0x00, 0xFD, 0x67], 0x0202, [(0x0200, 0x69), (0x0201, 0x80)], []⟩ ∧
    seen (run1 { boot with a := 0x01, sr := 0x25, mem := [(0x0200, 0x69), (0x0201, 0xFF)] }) =
        some ⟨[0x01, 0x00, 0x00, 0xFD, 0x25], 0x0202, [(0x0200, 0x69), (0x0201, 0xFF)], []⟩ := by
  decide

/-- V29, V30, V31, V32, V33, V34: SBC. -/
theorem test_sbc :
    seen (run1 { boot with a := 0x50, sr := 0x25, mem := [(0x0200, 0xE9), (0x0201, 0xF0)] }) =
        some ⟨[0x60, 0x00, 0x00, 0xFD, 0x24], 0x0202, [(0x0200, 0xE9), (0x0201, 0xF0)], []⟩ ∧
    seen (run1 { boot with a := 0x00, sr := 0x25, mem := [(0x0200, 0xE9), (0x0201, 0x01)] }) =
        some ⟨[0xFF, 0x00, 0x00, 0xFD, 0xA4], 0x0202, [(0x0200, 0xE9), (0x0201, 0x01)], []⟩ ∧
    seen (run1 { boot with a := 0x80, sr := 0x25, mem := [(0x0200, 0xE9), (0x0201, 0x01)] }) =
        some ⟨[0x7F, 0x00, 0x00, 0xFD, 0x65], 0x0202, [(0x0200, 0xE9), (0x0201, 0x01)], []⟩ ∧
    seen (run1 { boot with a := 0x00, sr := 0x24, mem := [(0x0200, 0xE9)] }) =
        some ⟨[0xFF, 0x00, 0x00, 0xFD, 0xA4], 0x0202, [(0x0200, 0xE9)], []⟩ ∧
    seen (run1 { boot with a := 0x50, sr := 0x25, mem := [(0x0200, 0xE9), (0x0201, 0x50)] }) =
        some ⟨[0x00, 0x00, 0x00, 0xFD, 0x27], 0x0202, [(0x0200, 0xE9), (0x0201, 0x50)], []⟩ ∧
    seen (run1 { boot with a := 0x50, sr := 0x25, mem := [(0x0200, 0xE9), (0x0201, 0xB0)] }) =
        some ⟨[0xA0, 0x00, 0x00, 0xFD, 0xE4], 0x0202, [(0x0200, 0xE9), (0x0201, 0xB0)], []⟩ := by
  decide

/-- V35, V36, V37, V38: CMP. -/
theorem test_cmp :
    seen (run1 { boot with a := 0x40, sr := 0x24, mem := [(0x0200, 0xC9), (0x0201, 0x40)] }) =
        some ⟨[0x40, 0x00, 0x00, 0xFD, 0x27], 0x0202, [(0x0200, 0xC9), (0x0201, 0x40)], []⟩ ∧
    seen (run1 { boot with a := 0x40, sr := 0x25, mem := [(0x0200, 0xC9), (0x0201, 0x41)] }) =
        some ⟨[0x40, 0x00, 0x00, 0xFD, 0xA4], 0x0202, [(0x0200, 0xC9), (0x0201, 0x41)], []⟩ ∧
    seen (run1 { boot with a := 0x80, sr := 0x24, mem := [(0x0200, 0xC9), (0x0201, 0x01)] }) =
        some ⟨[0x80, 0x00, 0x00, 0xFD, 0x25], 0x0202, [(0x0200, 0xC9), (0x0201, 0x01)], []⟩ ∧
    seen (run1 { boot with a := 0x00, sr := 0x24, mem := [(0x0200, 0xC9), (0x0201, 0x80)] }) =
        some ⟨[0x00, 0x00, 0x00, 0xFD, 0xA4], 0x0202, [(0x0200, 0xC9), (0x0201, 0x80)], []⟩ := by
  decide

/-- V39: CPX. -/
theorem test_cpx :
    seen (run1 { boot with x := 0x10, a := 0x99, mem := [(0x0200, 0xE0), (0x0201, 0x10)] }) =
        some ⟨[0x99, 0x10, 0x00, 0xFD, 0x27], 0x0202, [(0x0200, 0xE0), (0x0201, 0x10)], []⟩ := by
  decide

/-- V40: CPY. -/
theorem test_cpy :
    seen (run1 { boot with y := 0x05, mem := [(0x0010, 0x06), (0x0200, 0xC4), (0x0201, 0x10)] }) =
        some ⟨[0x00, 0x00, 0x05, 0xFD, 0xA4], 0x0202, [(0x0010, 0x06), (0x0200, 0xC4), (0x0201, 0x10)], []⟩ := by
  decide

/-- V41, V42: BIT. -/
theorem test_bit :
    seen (run1 { boot with a := 0x01, sr := 0x24, mem := [(0x0010, 0xC0), (0x0200, 0x24), (0x0201, 0x10)] }) =
        some ⟨[0x01, 0x00, 0x00, 0xFD, 0xE6], 0x0202, [(0x0010, 0xC0), (0x0200, 0x24), (0x0201, 0x10)], []⟩ ∧
    seen (run1 { boot with a := 0x41, sr := 0xE6, mem := [(0x0010, 0x01), (0x0200, 0x24), (0x0201, 0x10)] }) =
        some ⟨[0x41, 0x00, 0x00, 0xFD, 0x24], 0x0202, [(0x0010, 0x01), (0x0200, 0x24), (0x0201, 0x10)], []⟩ := by
  decide

/-- V43: ADC is binary with D set. -/
theorem test_sed_adc :
    seen (run2 { boot with a := 0x09, sr := 0x24, mem := [(0x0200, 0xF8), (0x0201, 0x69), (0x0202, 0x01)] }) =
        some ⟨[0x0A, 0x00, 0x00, 0xFD, 0x2C], 0x0203, [(0x0200, 0xF8), (0x0201, 0x69), (0x0202, 0x01)], []⟩ := by
  decide

/-- V50, V51, V55: ASL. -/
theorem test_asl :
    seen (run1 { boot with a := 0x81, sr := 0x24, mem := [(0x0200, 0x0A)] }) =
        some ⟨[0x02, 0x00, 0x00, 0xFD, 0x25], 0x0201, [(0x0200, 0x0A)], []⟩ ∧
    seen (run1 { boot with a := 0x80, sr := 0x24, mem := [(0x0200, 0x0A)] }) =
        some ⟨[0x00, 0x00, 0x00, 0xFD, 0x27], 0x0201, [(0x0200, 0x0A)], []⟩ ∧
    seen (run1 { boot with a := 0x00, mem := [(0x0010, 0x40), (0x0200, 0x06), (0x0201, 0x10)] }) =
        some ⟨[0x00, 0x00, 0x00, 0xFD, 0xA4], 0x0202, [(0x0010, 0x80), (0x0200, 0x06), (0x0201, 0x10)], []⟩ := by
  decide

/-- V52: LSR. -/
theorem test_lsr :
    seen (run1 { boot with a := 0x01, sr := 0xA4, mem := [(0x0200, 0x4A)] }) =
        some ⟨[0x00, 0x00, 0x00, 0xFD, 0x27], 0x0201, [(0x0200, 0x4A)], []⟩ := by
  decide

/-- V53: ROL. -/
theorem test_rol :
    seen (run1 { boot with a := 0x80, sr := 0x25, mem := [(0x0200, 0x2A)] }) =
        some ⟨[0x01, 0x00, 0x00, 0xFD, 0x25], 0x0201, [(0x0200, 0x2A)], []⟩ := by
  decide

/-- V54, V56: ROR. -/
theorem test_ror :
    seen (run1 { boot with a := 0x01, sr := 0x25, mem := [(0x0200, 0x6A)] }) =
        some ⟨[0x80, 0x00, 0x00, 0xFD, 0xA5], 0x0201, [(0x0200, 0x6A)], []⟩ ∧
    seen (run1 { boot with x := 0x04, sr := 0x25, mem := [(0x0200, 0x7E), (0x0201, 0x30), (0x0202, 0x12), (0x1234, 0x02)] }) =
        some ⟨[0x00, 0x04, 0x00, 0xFD, 0xA4], 0x0203, [(0x0200, 0x7E), (0x0201, 0x30), (0x0202, 0x12), (0x1234, 0x81)], []⟩ := by
  decide

/-- V57: INC. -/
theorem test_inc :
    seen (run1 { boot with mem := [(0x0010, 0xFF), (0x0200, 0xE6), (0x0201, 0x10)] }) =
        some ⟨[0x00, 0x00, 0x00, 0xFD, 0x26], 0x0202, [(0x0200, 0xE6), (0x0201, 0x10)], []⟩ := by
  decide

/-- V58: DEC. -/
theorem test_dec :
    seen (run1 { boot with mem := [(0x0200, 0xC6), (0x0201, 0x10)] }) =
        some ⟨[0x00, 0x00, 0x00, 0xFD, 0xA4], 0x0202, [(0x0010, 0xFF), (0x0200, 0xC6), (0x0201, 0x10)], []⟩ := by
  decide

/-- V59: INX. -/
theorem test_inx :
    seen (run1 { boot with x := 0x7F, mem := [(0x0200, 0xE8)] }) =
        some ⟨[0x00, 0x80, 0x00, 0xFD, 0xA4], 0x0201, [(0x0200, 0xE8)], []⟩ := by
  decide

/-- V60: DEX. -/
theorem test_dex :
    seen (run1 { boot with x := 0x01, mem := [(0x0200, 0xCA)] }) =
        some ⟨[0x00, 0x00, 0x00, 0xFD, 0x26], 0x0201, [(0x0200, 0xCA)], []⟩ := by
  decide

/-- V61: INY. -/
theorem test_iny :
    seen (run1 { boot with y := 0xFF, mem := [(0x0200, 0xC8)] }) =
        some ⟨[0x00, 0x00, 0x00, 0xFD, 0x26], 0x0201, [(0x0200, 0xC8)], []⟩ := by
  decide

/-- V62: DEY. -/
theorem test_dey :
    seen (run1 { boot with y := 0x00, mem := [(0x0200, 0x88)] }) =
        some ⟨[0x00, 0x00, 0xFF, 0xFD, 0xA4], 0x0201, [(0x0200, 0x88)], []⟩ := by
  decide

/-- V70, V71: LDA. -/
theorem test_lda :
    seen (run1 { boot with sr := 0xA6, mem := [(0x0200, 0xA9), (0x0201, 0x05)] }) =
        some ⟨[0x05, 0x00, 0x00, 0xFD, 0x24], 0x0202, [(0x0200, 0xA9), (0x0201, 0x05)], []⟩ ∧
    seen (run1 { boot with mem := [(0x0200, 0xA9), (0x0201, 0x80)] }) =
        some ⟨[0x80, 0x00, 0x00, 0xFD, 0xA4], 0x0202, [(0x0200, 0xA9), (0x0201, 0x80)], []⟩ := by
  decide

/-- V72: LDX. -/
theorem test_ldx :
    seen (run1 { boot with x := 0x12, mem := [(0x0200, 0xA2)] }) =
        some ⟨[0x00, 0x00, 0x00, 0xFD, 0x26], 0x0202, [(0x0200, 0xA2)], []⟩ := by
  decide

/-- V73: LDY. -/
theorem test_ldy :
    seen (run1 { boot with x := 0x01, mem := [(0x0011, 0xFE), (0x0200, 0xB4), (0x0201, 0x10)] }) =
        some ⟨[0x00, 0x01, 0xFE, 0xFD, 0xA4], 0x0202, [(0x0011, 0xFE), (0x0200, 0xB4), (0x0201, 0x10)], []⟩ := by
  decide

/-- V74, V75, V78: STA. -/
theorem test_sta :
    seen (run1 { boot with a := 0x00, sr := 0xA5, mem := [(0x0200, 0x8D), (0x0202, 0x03)] }) =
        some ⟨[0x00, 0x00, 0x00, 0xFD, 0xA5], 0x0203, [(0x0200, 0x8D), (0x0202, 0x03)], []⟩ ∧
    seen (run1 { boot with a := 0x5A, y := 0x03, mem := [(0x0011, 0x04), (0x0200, 0x91), (0x0201, 0x10)] }) =
        some ⟨[0x5A, 0x00, 0x03, 0xFD, 0x24], 0x0202, [(0x0011, 0x04), (0x0200, 0x91), (0x0201, 0x10), (0x0403, 0x5A)], []⟩ ∧
    seen (run1 { boot with a := 0x55, mem := [(0x0200, 0x8D), (0x0202, 0x80)] }) =
        some ⟨[0x55, 0x00, 0x00, 0xFD, 0x24], 0x0203, [(0x0200, 0x8D), (0x0202, 0x80)], []⟩ := by
  decide

/-- V79: STY. -/
theorem test_sty :
    seen (run1 { boot with y := 0x77, x := 0x02, mem := [(0x0200, 0x94), (0x0201, 0xFF)] }) =
        some ⟨[0x00, 0x02, 0x77, 0xFD, 0x24], 0x0202, [(0x0001, 0x77), (0x0200, 0x94), (0x0201, 0xFF)], []⟩ := by
  decide

/-- V80: TAX. -/
theorem test_tax :
    seen (run1 { boot with a := 0x00, x := 0x55, mem := [(0x0200, 0xAA)] }) =
        some ⟨[0x00, 0x00, 0x00, 0xFD, 0x26], 0x0201, [(0x0200, 0xAA)], []⟩ := by
  decide

/-- V81: TAY. -/
theorem test_tay :
    seen (run1 { boot with a := 0x80, mem := [(0x0200, 0xA8)] }) =
        some ⟨[0x80, 0x00, 0x80, 0xFD, 0xA4], 0x0201, [(0x0200, 0xA8)], []⟩ := by
  decide

/-- V82: TXA. -/
theorem test_txa :
    seen (run1 { boot with x := 0x01, a := 0x00, sr := 0x26, mem := [(0x0200, 0x8A)] }) =
        some ⟨[0x01, 0x01, 0x00, 0xFD, 0x24], 0x0201, [(0x0200, 0x8A)], []⟩ := by
  decide

/-- V83: TYA. -/
theorem test_tya :
    seen (run1 { boot with y := 0xF0, mem := [(0x0200, 0x98)] }) =
        some ⟨[0xF0, 0x00, 0xF0, 0xFD, 0xA4], 0x0201, [(0x0200, 0x98)], []⟩ := by
  decide

/-- V84: TSX. -/
theorem test_tsx :
    seen (run1 { boot with sp := 0x00, mem := [(0x0200, 0xBA)] }) =
        some ⟨[0x00, 0x00, 0x00, 0x00, 0x26], 0x0201, [(0x0200, 0xBA)], []⟩ := by
  decide

/-- V85: TXS. -/
theorem test_txs :
    seen (run1 { boot with x := 0x00, sr := 0x24, mem := [(0x0200, 0x9A)] }) =
        some ⟨[0x00, 0x00, 0x00, 0x00, 0x24], 0x0201, [(0x0200, 0x9A)], []⟩ := by
  decide

/-- V90, V91: PHA, with SP wrapping. -/
theorem test_pha :
    seen (run1 { boot with a := 0x3C, mem := [(0x0200, 0x48)] }) =
        some ⟨[0x3C, 0x00, 0x00, 0xFC, 0x24], 0x0201, [(0x01FD, 0x3C), (0x0200, 0x48)], []⟩ ∧
    seen (run1 { boot with a := 0x3C, sp := 0x00, mem := [(0x0200, 0x48)] }) =
        some ⟨[0x3C, 0x00, 0x00, 0xFF, 0x24], 0x0201, [(0x0100, 0x3C), (0x0200, 0x48)], []⟩ := by
  decide

/-- V92, V93: PLA, with SP wrapping. -/
theorem test_pla :
    seen (run1 { boot with sp := 0xFC, a := 0x11, mem := [(0x0200, 0x68)] }) =
        some ⟨[0x00, 0x00, 0x00, 0xFD, 0x26], 0x0201, [(0x0200, 0x68)], []⟩ ∧
    seen (run1 { boot with sp := 0xFF, mem := [(0x0100, 0x90), (0x0200, 0x68)] }) =
        some ⟨[0x90, 0x00, 0x00, 0x00, 0xA4], 0x0201, [(0x0100, 0x90), (0x0200, 0x68)], []⟩ := by
  decide

/-- V94: PHP. -/
theorem test_php :
    seen (run1 { boot with sr := 0xC3, mem := [(0x0200, 0x08)] }) =
        some ⟨[0x00, 0x00, 0x00, 0xFC, 0xE3], 0x0201, [(0x01FD, 0xF3), (0x0200, 0x08)], []⟩ := by
  decide

/-- V95, V96: PLP. -/
theorem test_plp :
    seen (run1 { boot with sp := 0xFC, mem := [(0x01FD, 0xFF), (0x0200, 0x28)] }) =
        some ⟨[0x00, 0x00, 0x00, 0xFD, 0xEF], 0x0201, [(0x01FD, 0xFF), (0x0200, 0x28)], []⟩ ∧
    seen (run1 { boot with sp := 0xFC, sr := 0xFF, mem := [(0x0200, 0x28)] }) =
        some ⟨[0x00, 0x00, 0x00, 0xFD, 0x20], 0x0201, [(0x0200, 0x28)], []⟩ := by
  decide

/-- V97: CLC, then SEC. -/
theorem test_clc_sec :
    seen (run2 { boot with sr := 0x27, mem := [(0x0200, 0x18), (0x0201, 0x38)] }) =
        some ⟨[0x00, 0x00, 0x00, 0xFD, 0x27], 0x0202, [(0x0200, 0x18), (0x0201, 0x38)], []⟩ := by
  decide

/-- V98: CLI. -/
theorem test_cli :
    seen (run1 { boot with sr := 0x24, mem := [(0x0200, 0x58)] }) =
        some ⟨[0x00, 0x00, 0x00, 0xFD, 0x20], 0x0201, [(0x0200, 0x58)], []⟩ := by
  decide

/-- V99: SEI. -/
theorem test_sei :
    seen (run1 { boot with sr := 0x20, mem := [(0x0200, 0x78)] }) =
        some ⟨[0x00, 0x00, 0x00, 0xFD, 0x24], 0x0201, [(0x0200, 0x78)], []⟩ := by
  decide

/-- V100: CLV. -/
theorem test_clv :
    seen (run1 { boot with sr := 0x64, mem := [(0x0200, 0xB8)] }) =
        some ⟨[0x00, 0x00, 0x00, 0xFD, 0x24], 0x0201, [(0x0200, 0xB8)], []⟩ := by
  decide

/-- V101: CLD. -/
theorem test_cld :
    seen (run1 { boot with sr := 0x2C, mem := [(0x0200, 0xD8)] }) =
        some ⟨[0x00, 0x00, 0x00, 0xFD, 0x24], 0x0201, [(0x0200, 0xD8)], []⟩ := by
  decide

/-- V102: SED. -/
theorem test_sed :
    seen (run1 { boot with sr := 0x24, mem := [(0x0200, 0xF8)] }) =
        some ⟨[0x00, 0x00, 0x00, 0xFD, 0x2C], 0x0201, [(0x0200, 0xF8)], []⟩ := by
  decide

/-- V103, V104: NOP; bit 5 of SR is forced to 1. -/
theorem test_nop :
    seen (run1 { boot with a := 0x01, x := 0x02, y := 0x03, sr := 0xE7, mem := [(0x0200, 0xEA)] }) =
        some ⟨[0x01, 0x02, 0x03, 0xFD, 0xE7], 0x0201, [(0x0200, 0xEA)], []⟩ ∧
    seen (run1 { boot with sr := 0x00, mem := [(0x0200, 0xEA)] }) =
        some ⟨[0x00, 0x00, 0x00, 0xFD, 0x20], 0x0201, [(0x0200, 0xEA)], []⟩ := by
  decide

/-- V110: JMP. -/
theorem test_jmp :
    seen (run1 { boot with mem := [(0x0200, 0x4C), (0x0201, 0x34), (0x0202, 0x12)] }) =
        some ⟨[0x00, 0x00, 0x00, 0xFD, 0x24], 0x1234, [(0x0200, 0x4C), (0x0201, 0x34), (0x0202, 0x12)], []⟩ := by
  decide

/-- V112, V113: JSR, with SP wrapping. -/
theorem test_jsr :
    seen (run1 { boot with mem := [(0x0200, 0x20), (0x0202, 0x03)] }) =
        some ⟨[0x00, 0x00, 0x00, 0xFB, 0x24], 0x0300, [(0x01FC, 0x02), (0x01FD, 0x02), (0x0200, 0x20), (0x0202, 0x03)], []⟩ ∧
    seen (run1 { boot with sp := 0x00, mem := [(0x0200, 0x20), (0x0202, 0x03)] }) =
        some ⟨[0x00, 0x00, 0x00, 0xFE, 0x24], 0x0300, [(0x0100, 0x02), (0x01FF, 0x02), (0x0200, 0x20), (0x0202, 0x03)], []⟩ := by
  decide

/-- V114, V115: RTS, with PC wrapping. -/
theorem test_rts :
    seen (run1 { boot with sp := 0xFB, mem := [(0x01FC, 0x02), (0x01FD, 0x02), (0x0200, 0x60)] }) =
        some ⟨[0x00, 0x00, 0x00, 0xFD, 0x24], 0x0203, [(0x01FC, 0x02), (0x01FD, 0x02), (0x0200, 0x60)], []⟩ ∧
    seen (run1 { boot with sp := 0xFB, mem := [(0x01FC, 0xFF), (0x01FD, 0xFF), (0x0200, 0x60)] }) =
        some ⟨[0x00, 0x00, 0x00, 0xFD, 0x24], 0x0000, [(0x01FC, 0xFF), (0x01FD, 0xFF), (0x0200, 0x60)], []⟩ := by
  decide

/-- V116: RTI. -/
theorem test_rti :
    seen (run1 { boot with sp := 0xFA, mem := [(0x01FB, 0xF3), (0x01FC, 0x34), (0x01FD, 0x12), (0x0200, 0x40)] }) =
        some ⟨[0x00, 0x00, 0x00, 0xFD, 0xE3], 0x1234, [(0x01FB, 0xF3), (0x01FC, 0x34), (0x01FD, 0x12), (0x0200, 0x40)], []⟩ := by
  decide

/-- V117, V118: BRK under Vector and Inert. -/
theorem test_brk :
    seen (run1 { boot with sr := 0x20, mem := [(0x0201, 0xAA), (0xFFFF, 0x90)] }) =
        some ⟨[0x00, 0x00, 0x00, 0xFA, 0x24], 0x9000, [(0x01FB, 0x30), (0x01FC, 0x02), (0x01FD, 0x02), (0x0201, 0xAA), (0xFFFF, 0x90)], []⟩ ∧
    seen (run1 { boot with sr := 0x20, mem := [(0x0201, 0xAA)], params := { brk := .inert } }) =
        some ⟨[0x00, 0x00, 0x00, 0xFA, 0x20], 0x0202, [(0x01FB, 0x30), (0x01FC, 0x02), (0x01FD, 0x02), (0x0201, 0xAA)], []⟩ := by
  decide

/-- V120: BPL. -/
theorem test_bpl :
    seen (run1 { boot with sr := 0x24, mem := [(0x0200, 0x10), (0x0201, 0x04)] }) =
        some ⟨[0x00, 0x00, 0x00, 0xFD, 0x24], 0x0206, [(0x0200, 0x10), (0x0201, 0x04)], []⟩ := by
  decide

/-- V121: BMI. -/
theorem test_bmi :
    seen (run1 { boot with sr := 0x24, mem := [(0x0200, 0x30), (0x0201, 0x04)] }) =
        some ⟨[0x00, 0x00, 0x00, 0xFD, 0x24], 0x0202, [(0x0200, 0x30), (0x0201, 0x04)], []⟩ := by
  decide

/-- V122: BVC. -/
theorem test_bvc :
    seen (run1 { boot with sr := 0x64, mem := [(0x0200, 0x50), (0x0201, 0xFE)] }) =
        some ⟨[0x00, 0x00, 0x00, 0xFD, 0x64], 0x0202, [(0x0200, 0x50), (0x0201, 0xFE)], []⟩ := by
  decide

/-- V123: BVS. -/
theorem test_bvs :
    seen (run1 { boot with sr := 0x64, mem := [(0x0200, 0x70), (0x0201, 0xFE)] }) =
        some ⟨[0x00, 0x00, 0x00, 0xFD, 0x64], 0x0200, [(0x0200, 0x70), (0x0201, 0xFE)], []⟩ := by
  decide

/-- V124: BCC. -/
theorem test_bcc :
    seen (run1 { boot with sr := 0x24, pc := 0x0280, mem := [(0x0280, 0x90), (0x0281, 0x80)] }) =
        some ⟨[0x00, 0x00, 0x00, 0xFD, 0x24], 0x0202, [(0x0280, 0x90), (0x0281, 0x80)], []⟩ := by
  decide

/-- V125: BCS. -/
theorem test_bcs :
    seen (run1 { boot with sr := 0x25, pc := 0x02F0, mem := [(0x02F0, 0xB0), (0x02F1, 0x7F)] }) =
        some ⟨[0x00, 0x00, 0x00, 0xFD, 0x25], 0x0371, [(0x02F0, 0xB0), (0x02F1, 0x7F)], []⟩ := by
  decide

/-- V126: BNE. -/
theorem test_bne :
    seen (run1 { boot with sr := 0x24, pc := 0xFFF0, mem := [(0xFFF0, 0xD0), (0xFFF1, 0x10)] }) =
        some ⟨[0x00, 0x00, 0x00, 0xFD, 0x24], 0x0002, [(0xFFF0, 0xD0), (0xFFF1, 0x10)], []⟩ := by
  decide

/-- V127, V128: BEQ. -/
theorem test_beq :
    seen (run1 { boot with sr := 0x26, mem := [(0x0200, 0xF0)] }) =
        some ⟨[0x00, 0x00, 0x00, 0xFD, 0x26], 0x0202, [(0x0200, 0xF0)], []⟩ ∧
    seen (run1 { boot with sr := 0x26, pc := 0x0300, mem := [(0x0300, 0xF0), (0x0301, 0xFD)] }) =
        some ⟨[0x00, 0x00, 0x00, 0xFD, 0x26], 0x02FF, [(0x0300, 0xF0), (0x0301, 0xFD)], []⟩ := by
  decide

/-- V130, V131: LAX. -/
theorem test_lax :
    seen (run1 { boot with mem := [(0x0010, 0x80), (0x0200, 0xA7), (0x0201, 0x10)] }) =
        some ⟨[0x80, 0x80, 0x00, 0xFD, 0xA4], 0x0202, [(0x0010, 0x80), (0x0200, 0xA7), (0x0201, 0x10)], []⟩ ∧
    seen (run1 { boot with y := 0x01, mem := [(0x0010, 0xFF), (0x0011, 0x02), (0x0200, 0xB3), (0x0201, 0x10)] }) =
        some ⟨[0x00, 0x00, 0x01, 0xFD, 0x26], 0x0202, [(0x0010, 0xFF), (0x0011, 0x02), (0x0200, 0xB3), (0x0201, 0x10)], []⟩ := by
  decide

/-- V132: SAX. -/
theorem test_sax :
    seen (run1 { boot with a := 0xF0, x := 0x3C, sr := 0xA4, mem := [(0x0200, 0x87), (0x0201, 0x10)] }) =
        some ⟨[0xF0, 0x3C, 0x00, 0xFD, 0xA4], 0x0202, [(0x0010, 0x30), (0x0200, 0x87), (0x0201, 0x10)], []⟩ := by
  decide

/-- V133: DCP. -/
theorem test_dcp :
    seen (run1 { boot with a := 0x40, mem := [(0x0010, 0x41), (0x0200, 0xC7), (0x0201, 0x10)] }) =
        some ⟨[0x40, 0x00, 0x00, 0xFD, 0x27], 0x0202, [(0x0010, 0x40), (0x0200, 0xC7), (0x0201, 0x10)], []⟩ := by
  decide

/-- V134: ISB. -/
theorem test_isb :
    seen (run1 { boot with a := 0x10, sr := 0x25, mem := [(0x0010, 0x0F), (0x0200, 0xE7), (0x0201, 0x10)] }) =
        some ⟨[0x00, 0x00, 0x00, 0xFD, 0x27], 0x0202, [(0x0010, 0x10), (0x0200, 0xE7), (0x0201, 0x10)], []⟩ := by
  decide

/-- V135: SLO. -/
theorem test_slo :
    seen (run1 { boot with a := 0x01, mem := [(0x0010, 0x81), (0x0200, 0x07), (0x0201, 0x10)] }) =
        some ⟨[0x03, 0x00, 0x00, 0xFD, 0x25], 0x0202, [(0x0010, 0x02), (0x0200, 0x07), (0x0201, 0x10)], []⟩ := by
  decide

/-- V136: RLA. -/
theorem test_rla :
    seen (run1 { boot with a := 0xFF, sr := 0x25, mem := [(0x0010, 0x80), (0x0200, 0x27), (0x0201, 0x10)] }) =
        some ⟨[0x01, 0x00, 0x00, 0xFD, 0x25], 0x0202, [(0x0010, 0x01), (0x0200, 0x27), (0x0201, 0x10)], []⟩ := by
  decide

/-- V137: SRE. -/
theorem test_sre :
    seen (run1 { boot with a := 0x01, mem := [(0x0010, 0x03), (0x0200, 0x47), (0x0201, 0x10)] }) =
        some ⟨[0x00, 0x00, 0x00, 0xFD, 0x27], 0x0202, [(0x0010, 0x01), (0x0200, 0x47), (0x0201, 0x10)], []⟩ := by
  decide

/-- V138: RRA. -/
theorem test_rra :
    seen (run1 { boot with a := 0x10, sr := 0x24, mem := [(0x0010, 0x03), (0x0200, 0x67), (0x0201, 0x10)] }) =
        some ⟨[0x12, 0x00, 0x00, 0xFD, 0x24], 0x0202, [(0x0010, 0x01), (0x0200, 0x67), (0x0201, 0x10)], []⟩ := by
  decide

/-- V139: TAS. -/
theorem test_tas :
    seen (run1 { boot with a := 0xF7, x := 0x7E, y := 0x05, mem := [(0x0200, 0x9B), (0x0202, 0x03)] }) =
        some ⟨[0xF7, 0x7E, 0x05, 0x76, 0x24], 0x0203, [(0x0200, 0x9B), (0x0202, 0x03), (0x0305, 0x04)], []⟩ := by
  decide

/-- V140: USBC. -/
theorem test_usbc :
    seen (run1 { boot with a := 0x05, sr := 0x25, mem := [(0x0200, 0xEB), (0x0201, 0x01)] }) =
        some ⟨[0x04, 0x00, 0x00, 0xFD, 0x25], 0x0202, [(0x0200, 0xEB), (0x0201, 0x01)], []⟩ := by
  decide

/-- V141, V142, V143, V144: the illegal NOPs; no video-unit read. -/
theorem test_nopStar :
    seen (run1 { boot with mem := [(0x0200, 0x04), (0x0201, 0x10)] }) =
        some ⟨[0x00, 0x00, 0x00, 0xFD, 0x24], 0x0202, [(0x0200, 0x04), (0x0201, 0x10)], []⟩ ∧
    seen (run1 { boot with mem := [(0x0200, 0x1C), (0x0201, 0x34), (0x0202, 0x12)] }) =
        some ⟨[0x00, 0x00, 0x00, 0xFD, 0x24], 0x0203, [(0x0200, 0x1C), (0x0201, 0x34), (0x0202, 0x12)], []⟩ ∧
    seen (run1 { boot with mem := [(0x0200, 0x1A)] }) =
        some ⟨[0x00, 0x00, 0x00, 0xFD, 0x24], 0x0201, [(0x0200, 0x1A)], []⟩ ∧
    seen (run1 { boot with mem := [(0x0200, 0x0C), (0x0201, 0x02), (0x0202, 0x20)] }) =
        some ⟨[0x00, 0x00, 0x00, 0xFD, 0x24], 0x0203, [(0x0200, 0x0C), (0x0201, 0x02), (0x0202, 0x20)], []⟩ := by
  decide

/-- V145: JAM under Nop. -/
theorem test_jam :
    seen (run1 { boot with mem := [(0x0200, 0x02)] }) =
        some ⟨[0x00, 0x00, 0x00, 0xFD, 0x24], 0x0201, [(0x0200, 0x02)], []⟩ := by
  decide

/-- V147: ANC under Nop. -/
theorem test_anc :
    seen (run1 { boot with a := 0xFF, mem := [(0x0200, 0x0B), (0x0201, 0x80)] }) =
        some ⟨[0xFF, 0x00, 0x00, 0xFD, 0x24], 0x0202, [(0x0200, 0x0B), (0x0201, 0x80)], []⟩ := by
  decide

/-- V149: SHA under Nop. -/
theorem test_sha :
    seen (run1 { boot with a := 0xFF, x := 0xFF, mem := [(0x0200, 0x9F), (0x0202, 0x03)] }) =
        some ⟨[0xFF, 0xFF, 0x00, 0xFD, 0x24], 0x0203, [(0x0200, 0x9F), (0x0202, 0x03)], []⟩ := by
  decide
/-- V13: the value read from the video unit is the draw, and the read is the one call. -/
theorem test_lda_videoUnit :
    let t := stateOf (run1 { boot with mem := [(0x0200, 0xAD), (0x0201, 0x02), (0x0202, 0x20)] })
    t.a = Config.videoReadByte 0 [.read .status] ∧ t.pc = 0x0203 ∧ t.video.calls = [.read .status] := ⟨rfl, rfl, rfl⟩

/-- V14: an operand fetch from the video window is a fault; PC is not advanced. -/
theorem test_lda_fetchFault :
    let s := { boot with pc := 0x1FFF, mem := [(0x1FFF, 0xAD), (0x2000, 0x02), (0x2001, 0x20)] }
    run1 s = .fault (.fetchFromMMIO 0x2000 s) := rfl

/-- V63: INC on an MMC1 is one mapper write, here of 0x80: a reset. The rest of the state is as the vector lists it. -/
theorem test_inc_mmc1 :
    let t := stateOf (run1 { boot with
      mapper := .mmc1, mem := [(0x0200, 0xEE), (0x0202, 0x80), (0x8000, 0x7F)] })
    t.mem = [(0x0200, 0xEE), (0x0202, 0x80), (0x8000, 0x7F)] ∧
      t.sr = 0xA4 ∧ t.pc = 0x0203 ∧ t.mmc1.control.count = 0 ∧ t.mmc1.control.value = 0x0C := by decide

/-- V64: a shift of a video-unit register is one read and one write of what was read, shifted. -/
theorem test_lsr_videoUnit :
    let t := stateOf (run1 { boot with mem := [(0x0200, 0x4E), (0x0202, 0x20)] })
    t.pc = 0x0203 ∧
      t.video.calls = [.write .control1 (Config.videoReadByte 0 [.read .control1] >>> 1), .read .control1] := by
  rw [show ∀ v : Byte, v >>> 1 = v >>> 1 ||| 0 from by simp]
  exact ⟨rfl, rfl⟩

/-- V76: a store to the video unit. -/
theorem test_stx_videoUnit :
    let t := stateOf (run1 { boot with x := 0x3F, mem := [(0x0200, 0x8E), (0x0201, 0x06), (0x0202, 0x20)] })
    t.pc = 0x0203 ∧ t.video.calls = [.write .vramAddress 0x3F] ∧
      t.mem = [(0x0200, 0x8E), (0x0201, 0x06), (0x0202, 0x20)] := ⟨rfl, rfl, rfl⟩

/-- V77: sprite DMA from page 3; 0x4014 is not written. -/
theorem test_sta_dma :
    let t := stateOf (run1 { boot with
      a := 0x03, mem := [(0x0200, 0x8D), (0x0201, 0x14), (0x0202, 0x40), (0x0300, 0x77), (0x0301, 0x78)] })
    t.video.calls = [.dmaWrite (t.mem.block 0x0300 256)] ∧ t.mem.block 0x0300 3 = [0x77, 0x78, 0x00] ∧
      t.mem.byteAt 0x4014 = 0 := ⟨rfl, rfl, rfl⟩

/-- V111: the two pointer bytes of an indirect jump into the video window are two reads of the unit, low byte first. -/
theorem test_jmpInd_videoUnit :
    let t := stateOf (run1 { boot with mem := [(0x0200, 0x6C), (0x0202, 0x20)] })
    t.video.calls = [.read .control2, .read .control1] ∧ loByte t.pc = loByte (mkWord
      (Config.videoReadByte 1 [.read .control2, .read .control1]) (Config.videoReadByte 0 [.read .control1])) := ⟨rfl, rfl⟩

/-- V119: BRK is refused under `P_BRK = Refuse`, and leaves the state it was given. -/
theorem test_brk_refused :
    let s : State := { boot with sr := 0x20, mem := [(0x0201, 0xAA)], params := { brk := .refuse } }
    run1 s = .refused (.brk s) := rfl

/-- V146, V148, V150: the unlisted opcodes are refused under `P_UNLISTED = Refuse`, before any operand fetch, and leave the state
they were given. -/
theorem test_unlisted_refused :
    let jam : State := { boot with mem := [(0x0200, 0x02)], params := { unlisted := .refuse } }
    let lxa : State := { boot with mem := [(0x0200, 0xAB), (0x0201, 0xFF)], params := { unlisted := .refuse } }
    let las : State := { boot with
      pc := 0x1FFF, mem := [(0x1FFF, 0xBB), (0x2001, 0x03)], params := { unlisted := .refuse } }
    run1 jam = .refused (.unlisted .jam jam) ∧ run1 lxa = .refused (.unlisted .lxa lxa) ∧
      run1 las = .refused (.unlisted .las las) := ⟨rfl, rfl, rfl⟩

/-! ## The MMC1 vectors, on an image of eight PRG banks and two CHR banks (its bytes all zero here; which bytes a commit maps is what
the obligations about it say) -/

/-- The MMC1 of section 2.8. -/
def mmc1Boot : State :=
  { boot with mapper := .mmc1, cart := { Cartridge.empty with prgBanks := 8, chrBanks := 2, mapperId := 1 } }

/-- Bus writes in order. -/
def writes : List (Word × Byte) → State → Result
  | [], s => .next s
  | (a, v) :: rest, s => andThen (busWrite a v s) fun t => writes rest t

/-- Control, CHR-bank-0, CHR-bank-1, PRG-bank. -/
def mmc1Regs (m : Mmc1) : List Mmc1Reg := [m.control, m.chrBank0, m.chrBank1, m.prgBank]

/-- The committed values, the accumulators and the counters, as the vectors list them. -/
def mmc1Seen : Result → Option (List (BitVec 5) × List (BitVec 5) × List Nat)
  | .next t => some ((mmc1Regs t.mmc1).map (·.value), (mmc1Regs t.mmc1).map (·.shift), (mmc1Regs t.mmc1).map (·.count))
  | .fault _ => none
  | .refused _ => none

/-- V160, V161, V162: five writes commit, four do not, a write with bit 7 set discards them. -/
theorem test_mmc1_serial :
    mmc1Seen (writes [(0xE000, 0x01), (0xE000, 0x01), (0xE000, 0x00), (0xE000, 0x00), (0xE000, 0x00)] mmc1Boot) =
      some ([0x0C, 0, 0, 0x03], [0, 0, 0, 0], [0, 0, 0, 0]) ∧
    mmc1Seen (writes [(0xE000, 0x01), (0xE000, 0x01), (0xE000, 0x00), (0xE000, 0x00)] mmc1Boot) =
      some ([0x0C, 0, 0, 0], [0, 0, 0, 0x06], [0, 0, 0, 4]) ∧
    mmc1Seen (writes [(0xE000, 0x01), (0xE000, 0x01), (0xE000, 0x00), (0xE000, 0x80)] mmc1Boot) =
      some ([0x0C, 0, 0, 0], [0, 0, 0, 0], [0, 0, 0, 0]) := by decide

/-- V164, V165: a sixth write starts again; the accumulators are independent. -/
theorem test_mmc1_accumulators :
    mmc1Seen (writes [(0xE000, 0x00), (0xE000, 0x01), (0xE000, 0x00), (0xE000, 0x00), (0xE000, 0x00), (0xE000, 0x01)]
      mmc1Boot) = some ([0x0C, 0, 0, 0x02], [0, 0, 0, 0x10], [0, 0, 0, 1]) ∧
    mmc1Seen (writes [(0x8000, 0x00), (0xE000, 0x01), (0x8000, 0x00), (0xE000, 0x00), (0x8000, 0x01), (0xE000, 0x00),
      (0x8000, 0x01), (0xE000, 0x00), (0x8000, 0x00), (0xE000, 0x00)] mmc1Boot) =
      some ([0x0C, 0, 0, 0x01], [0, 0, 0, 0], [0, 0, 0, 0]) := by decide

/-- V169, V174: a bank outside the image is a fault that leaves the commit done. -/
theorem test_mmc1_faults :
    (match writes [(0xE000, 0x01), (0xE000, 0x00), (0xE000, 0x00), (0xE000, 0x01), (0xE000, 0x00)] mmc1Boot with
      | .fault (.mapperBankOutOfRange r b left) => some (r, b, left.mmc1.prgBank)
      | _ => none) = some (.prgBank, 9, ⟨0, 0, 0x09, true⟩) ∧
    (match writes [(0x8000, 0x00), (0x8000, 0x00), (0x8000, 0x01), (0x8000, 0x01), (0x8000, 0x01), (0xA000, 0x00),
      (0xA000, 0x00), (0xA000, 0x01), (0xA000, 0x00), (0xA000, 0x00)] mmc1Boot with
      | .fault (.mapperBankOutOfRange r b left) => some (r, b, left.mmc1.chrBank0)
      | _ => none) = some (.chrBank0, 4, ⟨0, 0, 0x04, true⟩) := by decide

/-- V172, V173, V175: a 4KB CHR unit at 0x1000; CHR-bank-1 ignored in 8KB mode; no CHR, no effect. -/
theorem test_mmc1_chr :
    (stateOf (writes [(0x8000, 0x00), (0x8000, 0x00), (0x8000, 0x01), (0x8000, 0x01), (0x8000, 0x01), (0xC000, 0x01),
      (0xC000, 0x01), (0xC000, 0x00), (0xC000, 0x00), (0xC000, 0x00)] mmc1Boot)).video.calls =
      [.setPatternMemory 0x1000 []] ∧
    (stateOf (writes [(0xC000, 0x01), (0xC000, 0x00), (0xC000, 0x00), (0xC000, 0x00), (0xC000, 0x00)] mmc1Boot)).video.calls =
      [] ∧
    (stateOf (writes [(0xA000, 0x01), (0xA000, 0x00), (0xA000, 0x00), (0xA000, 0x00), (0xA000, 0x00)]
      { mmc1Boot with cart := { mmc1Boot.cart with chrBanks := 0 } })).video.calls = [] := by decide

/-! ## The load vectors that fail -/

/-- Launch values. -/
def launch : Launch := { a := 0, x := 0, y := 0, sp := 0xFD, sr := 0x24, ram := List.replicate 32768 0 }

/-- A header: PRG count, CHR count, offset 6, offset 7. -/
def header (prg chr h6 h7 : Byte) : List Byte :=
  [0x4E, 0x45, 0x53, 0x1A, prg, chr, h6, h7, 0, 0, 0, 0, 0, 0, 0, 0]

/-- V186, V187, V188, V189: no PRG bank, a trainer, an image without its banks, a header one byte short. -/
theorem test_load_malformed :
    State.reset.load launch (header 0 1 0 0) = .fault .zeroPrgBanks ∧
    State.reset.load launch (header 1 1 0x04 0) = .fault .trainer ∧
    State.reset.load launch (header 1 1 0 0) = .fault .imageTooShort ∧
    State.reset.load launch ((header 1 1 0 0).take 15) = .fault .imageTooShort := by
  simp [State.load, State.reset, header, headerByte]

/-- V183, V184, V185, V191: the checks of `configure`, and the nibble order of the mapper identifier. -/
theorem test_load_mapperChecks :
    configure { boot with cart := { Cartridge.empty with prgBanks := 3, mapperId := 0 } } =
      .fault .tooManyBanksForNoMapper ∧
    configure { boot with cart := { Cartridge.empty with prgBanks := 1, mapperId := 1 } } = .fault .tooFewBanksForMmc1 ∧
    configure { boot with cart := { Cartridge.empty with prgBanks := 1, mapperId := 4 } } = .fault .unknownMapper ∧
    headerMapperId (header 1 1 0x00 0x10) = 0x10 ∧ headerMapperId (header 1 1 0x10 0x00) = 0x01 := ⟨rfl, rfl, rfl, rfl, rfl⟩

/-- V190: a second load is refused. -/
theorem test_load_twice : boot.load launch (header 1 1 0 0) = .refused (.alreadyLoaded boot) := rfl

/-! ## The harness vectors, with the code and the two vectors in RAM and ROM bytes of a small state -/

/-- The program of section 2.10. -/
def harnessBoot : State :=
  { boot with
    pc := 0xC123
    mem := [(0xC123, 0xE8), (0xC124, 0x4C), (0xC125, 0x23), (0xC126, 0xC1), (0xC200, 0xC8), (0xC201, 0x40),
      (0xFFFB, 0xC2), (0xFFFC, 0x23), (0xFFFD, 0xC1)]
    video := { State.reset.video with blank := true } }

/-- V200: the entry, then INY at the handler, in one step. -/
theorem test_step_nmi :
    let t := stateOf (step harnessBoot)
    [t.a, t.x, t.y, t.sp, t.sr] = [0, 0, 1, 0xFA, 0x24] ∧ t.pc = 0xC201 ∧ t.icount = 1 ∧ t.video.blank = false ∧
      [0x01FB, 0x01FC, 0x01FD].map t.mem.byteAt = [0x24, 0x23, 0xC1] ∧ t.returns = [false] := by decide

/-- R434, V200 with BRK refused at the handler: the state the refusal leaves has the entry's frame, PC at BRK, and both calls. -/
theorem test_step_nmi_then_refused :
    ∃ t, step { harnessBoot with mem := harnessBoot.mem.put 0xC200 0x00, params := { brk := .refuse } } = .refused (.brk t) ∧
      [t.sp, t.sr] = [0xFA, 0x24] ∧ t.pc = 0xC200 ∧ t.icount = 0 ∧ t.video.blank = false ∧ t.returns = [] ∧
      t.video.calls = [.setBlank false, .getBlank] ∧ [0x01FB, 0x01FC, 0x01FD].map t.mem.byteAt = [0x24, 0x23, 0xC1] :=
  ⟨_, rfl, by decide⟩

/-- V201: not serviced with I clear, the blank lost. -/
theorem test_step_gateClosed :
    let t := stateOf (step { harnessBoot with sr := 0x20 })
    [t.a, t.x, t.y, t.sp, t.sr] = [0, 1, 0, 0xFD, 0x20] ∧ t.pc = 0xC124 ∧ t.icount = 1 ∧ t.video.blank = false ∧
      [0x01FB, 0x01FC, 0x01FD].map t.mem.byteAt = [0, 0, 0] := by decide

/-- V202: the other gate. -/
theorem test_step_gateOpenWhenIClear :
    let t := stateOf (step { harnessBoot with sr := 0x20, params := { nmiGate := .serviceWhenIClear } })
    [t.a, t.x, t.y, t.sp, t.sr] = [0, 0, 1, 0xFA, 0x24] ∧ t.pc = 0xC201 ∧
      [0x01FB, 0x01FC, 0x01FD].map t.mem.byteAt = [0x20, 0x23, 0xC1] := by decide

/-- V204, V205, their last counts: the blank is set at a multiple of 3, a frame is ready at a multiple of 4. -/
theorem test_step_periods :
    let p : Params := { vblankPeriod := 3, renderPeriod := 4 }
    (stateOf (step { harnessBoot with icount := 2, video := State.reset.video, params := p })).video.blank = true ∧
    (stateOf (step { harnessBoot with icount := 3, video := State.reset.video, params := p })).returns = [true] := by decide

/-- R390's last lines by hand: at a multiple of both periods `render`, with the frame buffer of the call, follows `set_blank(1)`; at a
multiple of neither a step only asks for the blank. -/
theorem test_step_signals :
    let p : Params := { vblankPeriod := 3, renderPeriod := 4 }
    let calls := fun n => (stateOf (step
      { harnessBoot with icount := n, video := State.reset.video, params := p, frameBuffer := 7 })).video.calls
    calls 11 = [.render 7, .setBlank true, .getBlank] ∧ calls 0 = [.getBlank] := by decide

/-- V206: nothing loaded. -/
theorem test_step_notLoaded : step State.reset = .refused (.notLoaded State.reset) := rfl

/-- The first instruction after reset, stored by `withFetchWord`: LDA #$05 (S8), JMP $1234 (V110). -/
theorem test_withFetchWord :
    (stateOf (step (State.reset.withFetchWord 16 0x05A9))).a = 0x05 ∧
    (stateOf (step (State.reset.withFetchWord 24 0x12344C))).pc = 0x1234 ∧
    decodeTableWord 16 0x05A9 = some (.ldaImm 0x05) ∧ decodeTableWord 24 0x12344C = some (.jmpAbs 0x1234) := ⟨rfl, rfl, rfl, rfl⟩

/-! ## Witnesses: for every obligation with hypotheses, a state and operands that meet them together, at the ends of their ranges -/

/-- `boot` with these bytes of memory. -/
def withMem (m : Memory) : State := { boot with mem := m }

theorem witness_DecodeUndoesEncode : (Instr.bne (-128)).wellFormed = true ∧ (Instr.bne 127).wellFormed = true ∧
    (Instr.jmpInd 0xFFFF).wellFormed = true := by decide

theorem witness_EncodeUndoesDecode : decode [0xD0, 0x80, 0x01] = .ok (.bne (-128), [0x01]) ∧
    decode [0x02] = .ok (.jam02, []) ∧ decode [0xAD, 0xFF, 0xFF] = .ok (.ldaAbs 0xFFFF, []) := ⟨rfl, rfl, rfl⟩

/-- A three-byte list decodes, whatever the operand bytes: one word for each clause of the first group. -/
theorem witness_OpcodeGroups_logic (b1 b2 : Byte) :
    decode [0x89, b1, b2] = .ok (.nopStarImm89 b1, [b2]) ∧ decode [0x01, b1, b2] = .ok (.oraIzx b1, [b2]) ∧
    decode [0x25, b1, b2] = .ok (.andZp b1, [b2]) ∧ decode [0x49, b1, b2] = .ok (.eorImm b1, [b2]) ∧
    decode [0x6D, b1, b2] = .ok (.adcAbs (mkWord b2 b1), []) ∧ decode [0x91, b1, b2] = .ok (.staIzy b1, [b2]) ∧
    decode [0xB5, b1, b2] = .ok (.ldaZpx b1, [b2]) ∧ decode [0xD9, b1, b2] = .ok (.cmpAby (mkWord b2 b1), []) ∧
    decode [0xFD, b1, b2] = .ok (.sbcAbx (mkWord b2 b1), []) := ⟨rfl, rfl, rfl, rfl, rfl, rfl, rfl, rfl, rfl⟩

/-- One word for each clause of the second group. -/
theorem witness_OpcodeGroups_shift (b1 b2 : Byte) :
    decode [0x9E, b1, b2] = .ok (.shxAby (mkWord b2 b1), []) ∧ decode [0x06, b1, b2] = .ok (.aslZp b1, [b2]) ∧
    decode [0x2E, b1, b2] = .ok (.rolAbs (mkWord b2 b1), []) ∧ decode [0x96, b1, b2] = .ok (.stxZpy b1, [b2]) ∧
    decode [0xB6, b1, b2] = .ok (.ldxZpy b1, [b2]) ∧ decode [0x56, b1, b2] = .ok (.lsrZpx b1, [b2]) ∧
    decode [0xBE, b1, b2] = .ok (.ldxAby (mkWord b2 b1), []) ∧ decode [0xDE, b1, b2] = .ok (.decAbx (mkWord b2 b1), []) :=
  ⟨rfl, rfl, rfl, rfl, rfl, rfl, rfl, rfl⟩

/-- The masks of those words. -/
theorem witness_OpcodeGroups_masks :
    (∀ op ∈ ([0x89, 0x01, 0x25, 0x49, 0x6D, 0x91, 0xB5, 0xD9, 0xFD] : List Byte), op &&& 0x03 = 0x01) ∧
    ([0x01, 0x25, 0x49, 0x6D, 0x91, 0xB5, 0xD9, 0xFD] : List Byte).map (fun op => op &&& 0x1C) =
      [0x00, 0x04, 0x08, 0x0C, 0x10, 0x14, 0x18, 0x1C] ∧
    (∀ op ∈ ([0x9E, 0x06, 0x2E, 0x96, 0xB6, 0x56, 0xBE, 0xDE] : List Byte), op &&& 0x07 = 0x06) ∧
    ([0x06, 0x2E, 0x96, 0xB6, 0x56, 0xBE, 0xDE] : List Byte).map (fun op => op &&& 0x18) =
      [0x00, 0x08, 0x10, 0x10, 0x10, 0x18, 0x18] := by decide

/-- A three-byte instruction that ends right before the video window, with an MMC1 and without. -/
theorem witness_StepRunsTheDecodedInstruction (k : MapperKind) (hk : k ≠ .none) :
    let s : State := { boot with mapper := k, pc := 0x1FFD, mem := [(0x1FFD, 0xAD), (0x1FFF, 0x03)] }
    let t := serviceBlank s
    s.mapper ≠ .none ∧
    decode [t.mem.byteAt t.pc.toNat, t.mem.byteAt (t.pc + 1).toNat, t.mem.byteAt (t.pc + 2).toNat] =
      .ok (.ldaAbs 0x0300, []) ∧
    ∀ j, j < (Instr.ldaAbs 0x0300).length → Fetchable (t.pc + BitVec.ofNat 16 j) := by
  refine ⟨hk, by cases k <;> rfl, ?_⟩
  show ∀ j, j < 3 → Fetchable ((0x1FFD : Word) + BitVec.ofNat 16 j)
  unfold Fetchable
  decide

/-- An instruction across the top of memory, with a blank pending that the gate lets in first. -/
theorem witness_StepRunsTheDecodedInstruction_wrap :
    let s : State := { boot with
      mem := [(0x0000, 0x34), (0x0001, 0x12), (0xFFFA, 0xFF), (0xFFFB, 0xFF), (0xFFFF, 0x4C)]
      video := { State.reset.video with blank := true } }
    let t := serviceBlank s
    s.mapper ≠ .none ∧ t.pc = 0xFFFF ∧
    decode [t.mem.byteAt t.pc.toNat, t.mem.byteAt (t.pc + 1).toNat, t.mem.byteAt (t.pc + 2).toNat] =
      .ok (.jmpAbs 0x1234, []) ∧
    ∀ j, j < 3 → Fetchable (t.pc + BitVec.ofNat 16 j) := by
  refine ⟨by decide, rfl, rfl, ?_⟩
  unfold Fetchable
  intro j hj
  interval_cases j <;> decide

/-- BusReadDispatches: the ends of the video window, and the addresses next to it. -/
theorem witness_Fetchable : ¬Fetchable 0x2000 ∧ ¬Fetchable 0x2007 ∧ Fetchable 0x1FFF ∧ Fetchable 0x2008 := by
  unfold Fetchable; decide

/-- The clauses of the order of stops: nothing loaded; the opcode in the window; BRK and LAS refused with the next byte in the window; an operand
byte there, the first or the second. -/
theorem witness_StopsBeforeExecutionComeInOrder :
    State.reset.mapper = .none ∧ boot.mapper ≠ .none ∧ ¬Fetchable (serviceBlank { boot with pc := 0x2007 }).pc ∧
    (let t := serviceBlank { boot with pc := 0x1FFF, params := { brk := .refuse } };
      Fetchable t.pc ∧ (shapeOf (t.mem.byteAt t.pc.toNat)).mnemonic = .brk ∧ t.params.brk = .refuse) ∧
    (let t := serviceBlank { boot with pc := 0x1FFF, mem := [(0x1FFF, 0xBB)], params := { unlisted := .refuse } };
      Fetchable t.pc ∧ (shapeOf (t.mem.byteAt t.pc.toNat)).mnemonic.opClass = .undocumentedUnlisted ∧
        t.params.unlisted = .refuse) ∧
    (let t := serviceBlank { boot with pc := 0x1FFF, mem := [(0x1FFF, 0xA9)] };
      Fetchable t.pc ∧ (shapeOf (t.mem.byteAt t.pc.toNat)).mnemonic = .lda ∧
        1 ≤ (shapeOf (t.mem.byteAt t.pc.toNat)).operandBytes ∧ ¬Fetchable (t.pc + 1)) ∧
    (let t := serviceBlank { boot with pc := 0x1FFE, mem := [(0x1FFE, 0xAD)] };
      Fetchable t.pc ∧ (shapeOf (t.mem.byteAt t.pc.toNat)).mnemonic = .lda ∧
        2 ≤ (shapeOf (t.mem.byteAt t.pc.toNat)).operandBytes ∧ Fetchable (t.pc + 1) ∧ ¬Fetchable (t.pc + 2)) := by
  unfold Fetchable
  refine ⟨rfl, by decide, by decide, ⟨by decide, rfl, rfl⟩, ⟨by decide, rfl, rfl⟩, ⟨by decide, rfl, by decide, by decide⟩,
    by decide, rfl, by decide, by decide, by decide⟩

theorem witness_PendingBlankEntersThroughTheNmiVector :
    harnessBoot.video.blank = true ∧ gateOpen harnessBoot.params.nmiGate (harnessBoot.flag .i) = true := by decide

theorem witness_BlankIsLostWhenTheGateIsClosed :
    (let s : State := { harnessBoot with sr := 0x20 };
      s.video.blank = true ∧ gateOpen s.params.nmiGate (s.flag .i) = false) ∧ boot.video.blank = false := by decide

/-- Steps after which both thresholds, the first alone, the second alone and neither are reached. -/
theorem witness_StepCountsAndSignals :
    let at' := fun (n v r : Nat) => { withMem [(0x0200, 0xEA)] with
      icount := n, params := { vblankPeriod := v, renderPeriod := r } }
    (∃ t, step (at' 5 3 2) = .next t ∧ t.icount % 3 = 0 ∧ t.icount % 2 = 0) ∧
    (∃ t, step (at' 2 3 2) = .next t ∧ t.icount % 3 = 0 ∧ t.icount % 2 ≠ 0) ∧
    (∃ t, step (at' 1 3 2) = .next t ∧ t.icount % 3 ≠ 0 ∧ t.icount % 2 = 0) ∧
    ∃ t, step (at' 0 3 2) = .next t ∧ t.icount % 3 ≠ 0 ∧ t.icount % 2 ≠ 0 :=
  ⟨⟨_, rfl, by decide, by decide⟩, ⟨_, rfl, by decide, by decide⟩, ⟨_, rfl, by decide, by decide⟩,
    ⟨_, rfl, by decide, by decide⟩⟩

/-- EveryStepForcesTheUnusedStatusBit, StepKeepsMapperCartridgeAndParameters: a (well-formed) state that steps. -/
theorem witness_step_next : (withMem [(0x0200, 0xEA)]).Wf ∧ (withMem [(0x0200, 0xEA)]).mapper ≠ .mmc1 ∧
    ∃ t, step (withMem [(0x0200, 0xEA)]) = .next t := ⟨by decide, by decide, _, rfl⟩

/-- The same with an MMC1 whose counters are at their greatest value. -/
theorem witness_StepKeepsWellFormed :
    let g : Mmc1Reg := { Mmc1Reg.initial 0 with count := 4 }
    let s : State := { withMem [(0x0200, 0x8D), (0x0202, 0x80)] with mapper := .mmc1, mmc1 := ⟨g, g, g, g⟩ }
    s.Wf ∧ ∃ t, step s = .next t := ⟨by decide, _, rfl⟩

/-- A step that stores to a device port. -/
theorem witness_StepNeverStoresBehindTheDevicePorts :
    ((0x2000 ≤ 0x2000 ∧ 0x2000 ≤ 0x2007) ∨ 0x2000 = 0x4014) ∧ ((0x2000 ≤ 0x2007 ∧ 0x2007 ≤ 0x2007) ∨ 0x2007 = 0x4014) ∧
    (∃ t, step (withMem [(0x0200, 0x8D), (0x0201, 0x07), (0x0202, 0x20)]) = .next t) ∧
    ∃ t, step (withMem [(0x0200, 0x8D), (0x0201, 0x14), (0x0202, 0x40)]) = .next t :=
  ⟨by decide, by decide, ⟨_, rfl⟩, _, rfl⟩

/-- A step that stores into the ROM window without an MMC1. -/
theorem witness_RomIsConstantWithoutMmc1 :
    let s := withMem [(0x0200, 0x8D), (0x0202, 0x80)]
    s.mapper ≠ .mmc1 ∧ ∃ t, step s = .next t := ⟨by decide, _, rfl⟩

/-- An image of `n` PRG banks, `c` CHR banks, all bytes zero. -/
def zeroCart (n c : Nat) : Cartridge :=
  { Cartridge.empty with
    prg := List.replicate (n * 16384) 0, chr := List.replicate (c * 8192) 0, prgBanks := n, chrBanks := c }

theorem zeroCart_wf (n c : Nat) : (zeroCart n c).Wf := by simp [zeroCart, Cartridge.Wf]

/-- A state whose ROM window shows a bank of zeros twice, and that steps. -/
theorem witness_StepKeepsRomShowingWholeBanks :
    let s : State := { boot with cart := zeroCart 1 0 }
    s.cart.Wf ∧ RomShowsBanks s ∧ ∃ t, step s = .next t := by
  refine ⟨zeroCart_wf 1 0, ⟨0, 0, ?_, ?_⟩, _, rfl⟩ <;> refine ⟨by decide, fun k hk => ?_⟩ <;>
    simp [-List.reduceReplicate, boot, State.reset, zeroCart, unlistedByte, List.getD,
      List.getElem?_replicate] <;> split <;> rfl

/-- A step that faults in each of the two ways, and one that is refused in each of the three. -/
theorem witness_StepStopsOnlyAsListed :
    (∃ f, step { boot with pc := 0x2000 } = .fault f) ∧
    (∃ f, step { mmc1Boot with
      a := 0x01, mem := [(0x0200, 0x8D), (0x0202, 0xE0)]
      mmc1 := { Mmc1.initial with prgBank := ⟨0x10, 4, 0, false⟩ } } = .fault f) ∧
    (∃ r, step State.reset = .refused r) ∧ (∃ r, step { boot with params := { brk := .refuse } } = .refused r) ∧
    ∃ r, step { withMem [(0x0200, 0x02)] with params := { unlisted := .refuse } } = .refused r :=
  ⟨⟨_, rfl⟩, ⟨_, rfl⟩, ⟨_, rfl⟩, ⟨_, rfl⟩, _, rfl⟩

theorem witness_EveryInstructionCompletesWithoutMmc1 : boot.mapper ≠ .mmc1 ∧ NoRefusal boot.params := by
  unfold NoRefusal; decide

/-- A block up to the last byte, and two canonical memories that read alike. -/
theorem witness_MemoryIsItsBytes :
    Memory.wf [(0x0000, 0x01), (0xFFFF, 0x02)] ∧ 0xFFFE + ([0x00, 0x03] : List Byte).length ≤ 65536 ∧
    ∀ a, Memory.byteAt [(0xFFFF, 0x02)] a = Memory.byteAt (Memory.put [(0xFFFF, 0x01)] 0xFFFF 0x02) a := by
  refine ⟨by decide, by decide, fun a => ?_⟩
  rw [show Memory.put [(0xFFFF, 0x01)] 0xFFFF 0x02 = [(0xFFFF, 0x02)] from by decide]

theorem witness_BusWriteReachesVideoOrRam :
    ¬Fetchable 0x2007 ∧ (Fetchable 0x2008 ∧ (0x2008 : Word).toNat < 0x8000 ∧ (0x2008 : Word) ≠ 0x4014) ∧
    (Fetchable 0x4013 ∧ (0x4013 : Word).toNat < 0x8000 ∧ (0x4013 : Word) ≠ 0x4014) ∧
    (Fetchable 0x7FFF ∧ (0x7FFF : Word).toNat < 0x8000 ∧ (0x7FFF : Word) ≠ 0x4014) := by
  unfold Fetchable; decide

theorem witness_DmaAndRomWritesStoreNothing :
    0x8000 ≤ (0x8000 : Word).toNat ∧ 0x8000 ≤ (0xFFFF : Word).toNat ∧ boot.mapper ≠ .mmc1 := by decide

/-- Each of the four registers, addressed at both ends of its window. -/
theorem witness_FiveSerialWritesCommit :
    mmc1Boot.mapper = .mmc1 ∧ (∀ r, (mmc1Boot.mmc1.reg r).count = 0) ∧
    (∀ a ∈ ([0x8000, 0x9FFF, 0x8000, 0x9FFF, 0x8000] : List Word), 0x8000 ≤ a.toNat ∧ mapperRegAt a = .control) ∧
    (∀ a ∈ ([0xA000, 0xBFFF, 0xA000, 0xBFFF, 0xA000] : List Word), 0x8000 ≤ a.toNat ∧ mapperRegAt a = .chrBank0) ∧
    (∀ a ∈ ([0xC000, 0xDFFF, 0xC000, 0xDFFF, 0xC000] : List Word), 0x8000 ≤ a.toNat ∧ mapperRegAt a = .chrBank1) ∧
    (∀ a ∈ ([0xE000, 0xFFFF, 0xE000, 0xFFFF, 0xE000] : List Word), 0x8000 ≤ a.toNat ∧ mapperRegAt a = .prgBank) ∧
    (∀ v ∈ ([0x00, 0x7F, 0x01, 0x00, 0x01] : List Byte), v.msb = false) ∧
    ∀ k, k < 5 → ([0x00, 0x7F, 0x01, 0x00, 0x01] : List Byte)[k]?.map (fun v => v.getLsbD 0) =
      some ((0x16 : BitVec 5).getLsbD k) := by
  refine ⟨rfl, fun r => by cases r <;> rfl, ?_, ?_, ?_, ?_, by decide, by decide⟩ <;> simp [mapperRegAt]

/-- Each window at both its ends; a write that selects another register; a write with bit 7 set. -/
theorem witness_MapperRegistersAreIndependent :
    (∀ a ∈ ([0x8000, 0x9FFF] : List Word), 0x8000 ≤ a.toNat ∧ a &&& 0xE000 = 0x8000) ∧
    (∀ a ∈ ([0xA000, 0xBFFF] : List Word), 0x8000 ≤ a.toNat ∧ a &&& 0xE000 = 0xA000) ∧
    (∀ a ∈ ([0xC000, 0xDFFF] : List Word), 0x8000 ≤ a.toNat ∧ a &&& 0xE000 = 0xC000) ∧
    (∀ a ∈ ([0xE000, 0xFFFF] : List Word), 0x8000 ≤ a.toNat ∧ a &&& 0xE000 = 0xE000) ∧
    (∃ t, mapperWrite 0xE000 0x01 mmc1Boot = .next t) ∧ MapperReg.control ≠ mapperRegAt 0xE000 ∧
    mmc1Boot.mapper = .mmc1 ∧ (0x80 : Byte).msb = true :=
  ⟨by simp, by simp, by simp, by simp, ⟨_, rfl⟩, by decide, rfl, rfl⟩

/-- `mmc1Boot` with an image of `n` PRG banks and `c` CHR banks and these committed values. -/
def committed (n c : Nat) (control chr0 chr1 prg : BitVec 5) : State :=
  { mmc1Boot with
    cart := zeroCart n c
    mmc1 := ⟨.initial control, .initial chr0, .initial chr1, .initial prg⟩ }

/-- The four modes, with both banks in the image. -/
theorem witness_PrgCommitMapsItsBanks :
    (let s := committed 8 0 0x00 0 0 0x17;
      s.cart.Wf ∧ s.mmc1.control.value.toNat / 4 % 4 = 0 ∧ s.mmc1.prgBank.value.toNat % 16 / 2 * 2 + 1 < s.cart.prgBanks) ∧
    (let s := committed 8 0 0x04 0 0 0x06;
      s.cart.Wf ∧ s.mmc1.control.value.toNat / 4 % 4 = 1 ∧ s.mmc1.prgBank.value.toNat % 16 / 2 * 2 + 1 < s.cart.prgBanks) ∧
    (let s := committed 8 0 0x08 0 0 0x07;
      s.cart.Wf ∧ s.mmc1.control.value.toNat / 4 % 4 = 2 ∧ 0 < s.cart.prgBanks ∧
        s.mmc1.prgBank.value.toNat % 16 < s.cart.prgBanks) ∧
    (let s := committed 8 0 0x0C 0 0 0x07;
      s.cart.Wf ∧ s.mmc1.control.value.toNat / 4 % 4 = 3 ∧ s.mmc1.prgBank.value.toNat % 16 < s.cart.prgBanks ∧
        s.cart.prgBanks - 1 < s.cart.prgBanks) :=
  ⟨⟨zeroCart_wf 8 0, rfl, by decide⟩, ⟨zeroCart_wf 8 0, rfl, by decide⟩, ⟨zeroCart_wf 8 0, rfl, by decide, by decide⟩,
    zeroCart_wf 8 0, rfl, by decide, by decide⟩

/-- The lower bank missing (modes 0 and 3, the first bank after the image), and the upper one alone (modes 0 and 2). -/
theorem witness_PrgCommitMapsItsBanks_missing :
    (let s := committed 8 0 0x00 0 0 0x08;
      s.cart.Wf ∧ s.mmc1.control.value.toNat / 4 % 4 = 0 ∧ s.cart.prgBanks ≤ s.mmc1.prgBank.value.toNat % 16 / 2 * 2) ∧
    (let s := committed 8 0 0x0C 0 0 0x08;
      s.cart.Wf ∧ s.mmc1.control.value.toNat / 4 % 4 = 3 ∧ s.cart.prgBanks ≤ s.mmc1.prgBank.value.toNat % 16) ∧
    (let s := committed 7 0 0x00 0 0 0x06;
      s.cart.Wf ∧ s.mmc1.control.value.toNat / 4 % 4 = 0 ∧ s.mmc1.prgBank.value.toNat % 16 / 2 * 2 < s.cart.prgBanks ∧
        s.cart.prgBanks ≤ s.mmc1.prgBank.value.toNat % 16 / 2 * 2 + 1) ∧
    (let s := committed 8 0 0x08 0 0 0x08;
      s.cart.Wf ∧ s.mmc1.control.value.toNat / 4 % 4 = 2 ∧ 0 < s.cart.prgBanks ∧
        s.cart.prgBanks ≤ s.mmc1.prgBank.value.toNat % 16) :=
  ⟨⟨zeroCart_wf 8 0, rfl, by decide⟩, ⟨zeroCart_wf 8 0, rfl, by decide⟩,
    ⟨zeroCart_wf 7 0, rfl, by decide, by decide⟩, zeroCart_wf 8 0, rfl, by decide, by decide⟩

/-- No CHR; the last 8KB unit and the next; the last 4KB unit and the next, for both registers. -/
theorem witness_ChrCommitMapsItsUnits :
    (committed 8 0 0x0C 0 0 0).cart.chrBanks = 0 ∧
    (let s := committed 8 2 0x0C 0x03 0 0;
      s.cart.chrBanks ≠ 0 ∧ s.mmc1.control.value.getLsbD 4 = false ∧
        s.mmc1.chrBank0.value.toNat / 2 * 2 + 2 ≤ s.cart.chrBanks * 2) ∧
    (let s := committed 8 2 0x0C 0x04 0 0;
      s.cart.chrBanks ≠ 0 ∧ s.mmc1.control.value.getLsbD 4 = false ∧
        s.cart.chrBanks * 2 < s.mmc1.chrBank0.value.toNat / 2 * 2 + 2) ∧
    (let s := committed 8 2 0x1C 0x03 0x03 0;
      s.cart.chrBanks ≠ 0 ∧ s.mmc1.control.value.getLsbD 4 = true ∧
        s.mmc1.chrBank0.value.toNat + 1 ≤ s.cart.chrBanks * 2 ∧ s.mmc1.chrBank1.value.toNat + 1 ≤ s.cart.chrBanks * 2) ∧
    (let s := committed 8 2 0x1C 0x04 0x04 0;
      s.cart.chrBanks ≠ 0 ∧ s.mmc1.control.value.getLsbD 4 = true ∧
        s.cart.chrBanks * 2 < s.mmc1.chrBank0.value.toNat + 1 ∧ s.cart.chrBanks * 2 < s.mmc1.chrBank1.value.toNat + 1) := by
  simp [-List.reduceReplicate, committed, zeroCart, Mmc1Reg.initial]

/-- `mmc1Boot` with four serial writes made to the PRG-bank register, the accumulator at `acc`. -/
def fourWritten (acc : BitVec 5) : State :=
  { mmc1Boot with a := 0x00, y := 0x80, mmc1 := { Mmc1.initial with prgBank := ⟨acc, 4, 0, false⟩ } }

/-- BusWriteCompletesUnlessABankIsMissing: the fifth write completes on the last bank of the image and not on the next; a write that is no fifth one completes. -/
theorem witness_WriteCompletes : WriteCompletes 0xE000 0x00 (fourWritten 0x0E) ∧
    ¬WriteCompletes 0xE000 0x00 (fourWritten 0x10) ∧ WriteCompletes 0xE000 0x80 (fourWritten 0x10) ∧
    WriteCompletes 0xE000 0x01 boot := by
  simp [fourWritten, WriteCompletes, IsCommit, CommitInRange, boot, mmc1Boot, State.reset, mapperRegAt, Mmc1.reg, prgMode,
    prgBanksFor, shiftIn, Mmc1.initial, Mmc1Reg.initial]
  decide

/-- LogicInstructionsCombineIntoA, AdcAddsWithCarry, SbcSubtractsWithBorrow, ComparesAndBitWriteFlagsOnly,
LoadsWriteTheirRegisters: an instruction of each form their clauses name. -/
theorem witness_forms_read (v z : Byte) (a : Word) :
    (Instr.oraImm v).form = ⟨.ora, .src (.imm v)⟩ ∧ (Instr.andZpx z).form = ⟨.and, .src (.mem (.zpx z))⟩ ∧
    (Instr.eorIzy z).form = ⟨.eor, .src (.mem (.izy z))⟩ ∧ (Instr.adcAbs a).form = ⟨.adc, .src (.mem (.abs a))⟩ ∧
    (Instr.sbcIzx z).form = ⟨.sbc, .src (.mem (.izx z))⟩ ∧ (Instr.usbcImm v).form = ⟨.usbc, .src (.imm v)⟩ ∧
    (Instr.cmpAbx a).form = ⟨.cmp, .src (.mem (.abx a))⟩ ∧ (Instr.cpxImm v).form = ⟨.cpx, .src (.imm v)⟩ ∧
    (Instr.cpyZp z).form = ⟨.cpy, .src (.mem (.zp z))⟩ ∧ (Instr.bitAbs a).form = ⟨.bit, .src (.mem (.abs a))⟩ ∧
    (Instr.ldaAby a).form = ⟨.lda, .src (.mem (.aby a))⟩ ∧ (Instr.ldxZpy z).form = ⟨.ldx, .src (.mem (.zpy z))⟩ ∧
    (Instr.ldyImm v).form = ⟨.ldy, .src (.imm v)⟩ ∧ (Instr.laxIzy z).form = ⟨.lax, .src (.mem (.izy z))⟩ :=
  ⟨rfl, rfl, rfl, rfl, rfl, rfl, rfl, rfl, rfl, rfl, rfl, rfl, rfl, rfl⟩

/-- States in which ADD and SUBTRACT of `SubtractUndoesAdd` see complementary carries. -/
theorem witness_SubtractUndoesAdd : State.flag { boot with sr := 0x25 } .c = (!boot.flag .c) := by decide

/-- A store that does not complete, and two that do, as an MMC1 write with bit 7 set and in RAM. -/
theorem witness_StoresWriteOnceAndTouchNoFlag :
    let s := fourWritten 0x10
    (Instr.staAbs 0xE000).form = ⟨.sta, .src (.mem (.abs 0xE000))⟩ ∧
    (Instr.styAbs 0xE000).form = ⟨.sty, .src (.mem (.abs 0xE000))⟩ ∧
    (Instr.stxZpy 0x10).form = ⟨.stx, .src (.mem (.zpy 0x10))⟩ ∧
    (Instr.saxIzx 0x10).form = ⟨.sax, .src (.mem (.izx 0x10))⟩ ∧
    ¬WriteCompletes (addressOf (.abs 0xE000) s) s.a s ∧ WriteCompletes (addressOf (.abs 0xE000) s) s.y s ∧
    WriteCompletes (addressOf (.zpy 0x10) s) s.x s ∧ WriteCompletes (addressOf (.izx 0x10) s) (s.a &&& s.x) s := by
  refine ⟨rfl, rfl, rfl, rfl, witness_WriteCompletes.2.1, witness_WriteCompletes.2.2.1, fun h => ?_, fun h => ?_⟩ <;>
    exact absurd h.2.1 (by decide)

/-- A TAS whose write completes, and one whose write commits the first bank after the image. -/
theorem witness_TasSetsSpAndStores : (Instr.tasAby 0x0300).form = ⟨.tas, .src (.mem (.aby 0x0300))⟩ ∧
    WriteCompletes (BitVec.ofNat 16 ((0x0300 : Word).toNat + boot.y.toNat)) 0x04 boot ∧
    (Instr.tasAby 0xDF80).form = ⟨.tas, .src (.mem (.aby 0xDF80))⟩ ∧
    (let s := fourWritten 0x10;
      ¬WriteCompletes (BitVec.ofNat 16 ((0xDF80 : Word).toNat + s.y.toNat))
        (s.a &&& s.x &&& BitVec.ofNat 8 ((0xDF80 : Word).toNat / 256 + 1)) { s with sp := s.a &&& s.x }) := by
  refine ⟨rfl, ?_, rfl, witness_WriteCompletes.2.1⟩
  simp [WriteCompletes, IsCommit, boot, State.reset]

/-- MemoryShiftsAndSteps, UndocumentedReadModifyWrite: an instruction of each form their clauses name, a write that
completes, and one of a result (`LSR` or `SLO` of the zero at 0xE000) that commits the first bank after the image. -/
theorem witness_forms_modify (z : Byte) (a : Word) (e : Word) (r : Byte) :
    (Instr.aslZp z).form = ⟨.asl, .src (.mem (.zp z))⟩ ∧ (Instr.lsrAbs a).form = ⟨.lsr, .src (.mem (.abs a))⟩ ∧
    (Instr.rolZpx z).form = ⟨.rol, .src (.mem (.zpx z))⟩ ∧ (Instr.rorAbx a).form = ⟨.ror, .src (.mem (.abx a))⟩ ∧
    (Instr.incZp z).form = ⟨.inc, .src (.mem (.zp z))⟩ ∧ (Instr.decAbs a).form = ⟨.dec, .src (.mem (.abs a))⟩ ∧
    (Instr.sloIzx z).form = ⟨.slo, .src (.mem (.izx z))⟩ ∧ (Instr.rlaIzy z).form = ⟨.rla, .src (.mem (.izy z))⟩ ∧
    (Instr.sreAby a).form = ⟨.sre, .src (.mem (.aby a))⟩ ∧ (Instr.rraZp z).form = ⟨.rra, .src (.mem (.zp z))⟩ ∧
    (Instr.dcpAbs a).form = ⟨.dcp, .src (.mem (.abs a))⟩ ∧ (Instr.isbAbx a).form = ⟨.isb, .src (.mem (.abx a))⟩ ∧
    WriteCompletes e r (busRead e boot).2 ∧
    (let old := busRead (addressOf (.abs 0xE000) (fourWritten 0x10)) (fourWritten 0x10);
      ¬WriteCompletes 0xE000 (BitVec.ofNat 8 (old.1.toNat / 2)) old.2 ∧
        ¬WriteCompletes 0xE000 (BitVec.ofNat 8 (old.1.toNat * 2 % 256)) old.2) := by
  refine ⟨rfl, rfl, rfl, rfl, rfl, rfl, rfl, rfl, rfl, rfl, rfl, rfl, fun h => ?_, witness_WriteCompletes.2.1,
    witness_WriteCompletes.2.1⟩
  have h := h.1
  rw [busRead_state] at h
  exact MapperKind.noConfusion (show MapperKind.noMapper = .mmc1 from h)

theorem witness_NopsOnlyAdvance (a : Word) : Instr.nop.mnemonic = .nop ∧ (Instr.nopStarAbx1C a).mnemonic = .nopStar :=
  ⟨rfl, rfl⟩

theorem witness_UnlistedOpcodesFollowTheirPolicy (v : Byte) :
    (Instr.aneImm v).mnemonic.opClass = .undocumentedUnlisted ∧ boot.params.unlisted = .nop ∧
    ({ unlisted := .refuse } : Params).unlisted = .refuse := ⟨rfl, rfl, rfl⟩

theorem witness_BrkFollowsItsPolicy : boot.params.brk = .vector ∧ ({ brk := .inert } : Params).brk = .inert ∧
    ({ brk := .refuse } : Params).brk = .refuse := ⟨rfl, rfl, rfl⟩

/-- A call and its return, an entry and its return. -/
theorem witness_ReturnsUndoTheirCalls :
    (∃ t u v, exec (.jsrAbs 0x0300) boot = .next t ∧ u.mem = t.mem ∧ u.sp = t.sp ∧ exec .rts u = .next v) ∧
    ∃ u v, u.mem = (enterNmi harnessBoot).mem ∧ u.sp = (enterNmi harnessBoot).sp ∧ exec .rti u = .next v :=
  ⟨⟨_, _, _, rfl, rfl, rfl, rfl⟩, enterNmi harnessBoot, _, rfl, rfl, rfl⟩

/-- RegistersHaveTheirWriters, FlagsHaveTheirWriters, MemoryChangesOnlyWhereStored, InstructionsLeaveTheHarnessAlone: one that stores nothing, one of each shape that stores, and forms without an operand in
memory. -/
theorem witness_frames :
    (∃ t, exec (.cmpImm 0x10) boot = .next t ∧ Instr.mnemonic (.cmpImm 0x10) = .cmp) ∧
    (∃ t, exec (.staAbs 0x0300) boot = .next t ∧ Instr.operand (.staAbs 0x0300) = .src (.mem (.abs 0x0300)) ∧
      (addressOf (.abs 0x0300) boot).toNat < 0x8000) ∧
    (∃ t, exec .rorAcc boot = .next t ∧ Instr.operand .rorAcc = .acc) ∧
    (∃ t, exec .pha boot = .next t ∧ Instr.mnemonic .pha = .pha) ∧
    (∃ t, exec (.jsrAbs 0x0300) boot = .next t ∧ Instr.mnemonic (.jsrAbs 0x0300) = .jsr) ∧
    (∃ t, exec (.brk 0x00) boot = .next t ∧ Instr.mnemonic (.brk 0x00) = .brk) ∧
    (∃ t, exec (.bne (-2)) boot = .next t ∧ Instr.operand (.bne (-2)) = .rel (-2)) ∧
    ∃ t, exec (.nopStarAbs 0x2002) boot = .next t ∧ Instr.mnemonic (.nopStarAbs 0x2002) = .nopStar :=
  ⟨⟨_, rfl, rfl⟩, ⟨_, rfl, rfl, by decide⟩, ⟨_, rfl, rfl⟩, ⟨_, rfl, rfl⟩, ⟨_, rfl, rfl⟩, ⟨_, rfl, rfl⟩, ⟨_, rfl, rfl⟩, _, rfl, rfl⟩

/-- An image: a header and `n` bytes of zero. -/
def zeroImage (prg chr h6 h7 : Byte) (n : Nat) : List Byte := header prg chr h6 h7 ++ List.replicate n 0

/-- LoadSetsTheResetState, LoadMapsTheInitialBanks, LoadEstablishesTheInvariants: V180 with a bank of zeros, an image that loads; and an
MMC1 image with character data. -/
theorem witness_load : launch.ram.length = 32768 ∧ (∃ t, State.reset.load launch (zeroImage 1 0 0 0 16384) = .next t) ∧
    ∃ t, State.reset.load launch (zeroImage 2 1 0x10 0 (2 * 16384 + 8192)) = .next t := by
  refine ⟨by simp [-List.reduceReplicate, launch], ?_⟩
  simp [-List.reduceReplicate, State.load, State.reset, zeroImage, header, headerByte, configure, launchState, cartridgeOf, headerMapperId]

/-- Every failure's conditions, at their ends: 15 bytes, a trainer, no bank, one byte short, and whole images whose mapper does not
take their banks, or does. -/
theorem witness_LoadFailsOnMalformedImages :
    boot.mapper ≠ .none ∧ State.reset.mapper = .none ∧ ((header 1 0 0 0).take 15).length < 16 ∧
    (headerByte (header 1 0 0x04 0) 6).getLsbD 2 = true ∧ (headerByte (header 0 0 0 0) 4).toNat = 0 ∧
    (zeroImage 1 0 0 0 16383).length < 16 + 1 * 16384 + 0 * 8192 ∧
    (∀ p ∈ ([(3, 0x00), (1, 0x10), (1, 0x20), (1, 0x00), (2, 0x00), (2, 0x10)] : List (Byte × Byte)),
      let image := zeroImage p.1 0 p.2 0 (p.1.toNat * 16384)
      16 + (headerByte image 4).toNat * 16384 + (headerByte image 5).toNat * 8192 ≤ image.length ∧
        (headerByte image 6).getLsbD 2 = false ∧ (headerByte image 4).toNat = p.1.toNat ∧
        (headerByte image 7).toNat / 16 * 16 + (headerByte image 6).toNat / 16 = p.2.toNat / 16) := by
  simp [-List.reduceReplicate, boot, State.reset, header, headerByte, zeroImage]

end Sys2Proof.Tests
end

section
/-! The unused status bit (10_state R36): the end of an instruction sets it, and the harness around the instruction writes no
register. -/

namespace Sys2Proof.Machine

/-- An instruction that completes leaves bit 5 of SR set. -/
theorem exec_next_bit5 {i : Instr} {s t : State} (h : exec i s = .next t) : t.sr.getLsbD 5 = true := by
  obtain ⟨-, u, -, rfl⟩ := exec_next h
  exact finishInstr_bit5 i.form.flagPass u

/-- The counter, the thresholds and the result of a call (R390, R425) leave SR alone. -/
@[simp] theorem endStep_sr (u : State) : (endStep u).sr = u.sr := by
  rw [endStep_eq]

/-- Settles O14: a step that completes ends with a completed instruction, which sets the bit, and the end of the call, which keeps
SR. -/
theorem everyStepForcesTheUnusedStatusBit : Obligations.EveryStepForcesTheUnusedStatusBit := by
  intro s t hstep
  obtain ⟨-, i, u, -, hexec, rfl⟩ := step_next hstep
  rw [endStep_sr]
  exact exec_next_bit5 hexec

end Sys2Proof.Machine
end

section
/-! ADC (41_alu R208): what ADD (R201) answers and writes, and what the generic flag pass (R175) leaves in SR after it. -/

namespace Sys2Proof.Machine

/-- The flags after the generic pass: N and Z of A, the others as the operation left them. -/
theorem srFlag_finishInstr_pass (u : State) (f : Flag) :
    srFlag (finishInstr true u).sr f = if f = .z then u.a == 0 else if f = .n then u.a.msb else srFlag u.sr f := by
  simp [finishInstr_sr]

/-- An operation that wrote the flags of `writes`, none of them N or Z, ends under the generic pass with those and N, Z of A. -/
theorem statusAfter_flagPass {old : Byte} {u : State} {writes : List (Flag × Bool)}
    (hnz : ∀ p ∈ writes, p.1 ≠ .n ∧ p.1 ≠ .z) (hw : ∀ p ∈ writes, srFlag u.sr p.1 = p.2)
    (hkeep : ∀ f, f ∉ writes.map Prod.fst → srFlag u.sr f = srFlag old f) :
    StatusAfter old (finishInstr true u).sr (nzOf u.a ++ writes) := by
  refine ⟨finishInstr_bit5 true u, fun p hp => ?_, fun f hf => ?_⟩
  · rw [srFlag_finishInstr_pass]
    rcases List.mem_append.mp hp with hp | hp
    · obtain rfl | rfl : p = (.n, u.a.msb) ∨ p = (.z, u.a == 0) := by simpa [nzOf] using hp
      · rfl
      · rfl
    · obtain ⟨hn, hz⟩ := hnz p hp
      rw [if_neg hz, if_neg hn, hw p hp]
  · obtain ⟨hn, hz, hf⟩ : f ≠ .n ∧ f ≠ .z ∧ f ∉ writes.map Prod.fst := by
      simpa [nzOf, and_assoc] using hf
    rw [srFlag_finishInstr_pass, if_neg hz, if_neg hn, hkeep f hf]

/-- ADD's result is the sum in the widened range, cut to 8 bits (R201). -/
theorem addBytes_fst (a m : Byte) (s : State) :
    (addBytes a m s).1 = BitVec.ofNat 8 ((a.toNat + m.toNat + (s.flag .c).toNat) % 256) :=
  BitVec.eq_of_toNat_eq (by simp [addBytes, carry])

/-- ADD writes C and V and no other flag (R201). -/
theorem srFlag_addBytes (a m : Byte) (s : State) (f : Flag) :
    srFlag (addBytes a m s).2.sr f =
      if f = .v then a.msb == m.msb && (addBytes a m s).1.msb != a.msb
      else if f = .c then decide (a.toNat + m.toNat + (s.flag .c).toNat > 255)
      else s.flag f := by
  simp only [addBytes, State.setFlag, State.setSr_sr, srFlag_srWith]
  rfl

/-- ADD looks at SR only, and writes SR only: with the same SR it answers the same sum and leaves the same SR. -/
theorem addBytes_congr (a m : Byte) {s t : State} (h : t.sr = s.sr) :
    addBytes a m t = ((addBytes a m s).1, t.setSr (addBytes a m s).2.sr) := by
  have hcarry : carry t = carry s := by simp only [carry, State.flag, h]
  simp only [addBytes, State.setFlag, State.setSr_sr, State.setSr_setSr]
  rw [hcarry, h]

/-- ADC is ADD of A and the operand; the read leaves A and SR, which ADD sees. -/
theorem performAdc_setPc (o : Source) (s : State) (pc : Word) :
    performAdc o (s.setPc pc) =
      .next ((((readSource o s).2.setPc pc).setSr (addBytes s.a (readSource o s).1 s).2.sr).setA
        (addBytes s.a (readSource o s).1 s).1) := by
  have hsr : ((readSource o s).2.setPc pc).sr = s.sr := readSource_sr o s
  simp only [performAdc, readSource_setPc, State.setPc_a, readSource_a, addBytes_congr _ _ hsr]

/-- Settles O33: ADC is ADD, which writes C and V, and the generic pass writes N and Z of the sum; D is in none of it. -/
theorem adcAddsWithCarry : Obligations.AdcAddsWithCarry := by
  intro i o s hi m sum r
  have hr : (addBytes s.a m.1 s).1 = r := addBytes_fst ..
  have hp : performOf i.form s.pc (s.setPc (nextPc i s)) = performAdc o (s.setPc (nextPc i s)) := by
    rw [hi]
    rfl
  refine runsTo_of_performOf (no_refusal_of_form hi s) (hp.trans (performAdc_setPc o s _)) ?_ ?_
  · rw [hr]
    rfl
  · rw [show i.form.flagPass = true by rw [hi]; rfl, hr]
    refine statusAfter_flagPass (by simp) ?_ fun f hf => ?_
    · simp [srFlag_addBytes, hr, sum, m]
    · obtain ⟨hc, hv⟩ : f ≠ .c ∧ f ≠ .v := by simpa using hf
      simp [srFlag_addBytes, hc, hv, State.flag, m, readSource_sr]

end Sys2Proof.Machine
end

section
/-! The encoding (30_encoding R140-R150): the decoder and the encoder undo each other, the length and the mnemonic are the
opcode's, and the two regular groups follow their masks. -/

namespace Sys2Proof.Laws.EncodingRow

/-- The row of every instruction's opcode, completed with its operand bytes, is the instruction. -/
theorem statement (i : Instr) : Statement i := by
  cases i
  exacts [brk _, oraIzx _, sloIzx _, nopStarZp04 _, oraZp _, aslZp _, sloZp _, oraImm _, ancImm0B _, nopStarAbs _,
      oraAbs _, aslAbs _, sloAbs _, bpl _, oraIzy _, sloIzy _, nopStarZpx14 _, oraZpx _, aslZpx _, sloZpx _,
      oraAby _, sloAby _, nopStarAbx1C _, oraAbx _, aslAbx _, sloAbx _, jsrAbs _, andIzx _, rlaIzx _, bitZp _,
      andZp _, rolZp _, rlaZp _, andImm _, ancImm2B _, bitAbs _, andAbs _, rolAbs _, rlaAbs _, bmi _, andIzy _,
      rlaIzy _, nopStarZpx34 _, andZpx _, rolZpx _, rlaZpx _, andAby _, rlaAby _, nopStarAbx3C _, andAbx _, rolAbx _,
      rlaAbx _, eorIzx _, sreIzx _, nopStarZp44 _, eorZp _, lsrZp _, sreZp _, eorImm _, alrImm _, jmpAbs _, eorAbs _,
      lsrAbs _, sreAbs _, bvc _, eorIzy _, sreIzy _, nopStarZpx54 _, eorZpx _, lsrZpx _, sreZpx _, eorAby _,
      sreAby _, nopStarAbx5C _, eorAbx _, lsrAbx _, sreAbx _, adcIzx _, rraIzx _, nopStarZp64 _, adcZp _, rorZp _,
      rraZp _, adcImm _, arrImm _, jmpInd _, adcAbs _, rorAbs _, rraAbs _, bvs _, adcIzy _, rraIzy _, nopStarZpx74 _,
      adcZpx _, rorZpx _, rraZpx _, adcAby _, rraAby _, nopStarAbx7C _, adcAbx _, rorAbx _, rraAbx _, nopStarImm80 _,
      staIzx _, nopStarImm82 _, saxIzx _, styZp _, staZp _, stxZp _, saxZp _, nopStarImm89 _, aneImm _, styAbs _,
      staAbs _, stxAbs _, saxAbs _, bcc _, staIzy _, shaIzy _, styZpx _, staZpx _, stxZpy _, saxZpy _, staAby _,
      tasAby _, shyAbx _, staAbx _, shxAby _, shaAby _, ldyImm _, ldaIzx _, ldxImm _, laxIzx _, ldyZp _, ldaZp _,
      ldxZp _, laxZp _, ldaImm _, lxaImm _, ldyAbs _, ldaAbs _, ldxAbs _, laxAbs _, bcs _, ldaIzy _, laxIzy _,
      ldyZpx _, ldaZpx _, ldxZpy _, laxZpy _, ldaAby _, lasAby _, ldyAbx _, ldaAbx _, ldxAby _, laxAby _, cpyImm _,
      cmpIzx _, nopStarImmC2 _, dcpIzx _, cpyZp _, cmpZp _, decZp _, dcpZp _, cmpImm _, sbxImm _, cpyAbs _, cmpAbs _,
      decAbs _, dcpAbs _, bne _, cmpIzy _, dcpIzy _, nopStarZpxD4 _, cmpZpx _, decZpx _, dcpZpx _, cmpAby _,
      dcpAby _, nopStarAbxDC _, cmpAbx _, decAbx _, dcpAbx _, cpxImm _, sbcIzx _, nopStarImmE2 _, isbIzx _, cpxZp _,
      sbcZp _, incZp _, isbZp _, sbcImm _, usbcImm _, cpxAbs _, sbcAbs _, incAbs _, isbAbs _, beq _, sbcIzy _,
      isbIzy _, nopStarZpxF4 _, sbcZpx _, incZpx _, isbZpx _, sbcAby _, isbAby _, nopStarAbxFC _, sbcAbx _, incAbx _,
      isbAbx _, jam02, php, aslAcc, jam12, clc, nopStar1A, jam22, plp, rolAcc, jam32, sec, nopStar3A, rti, jam42,
      pha, lsrAcc, jam52, cli, nopStar5A, rts, jam62, pla, rorAcc, jam72, sei, nopStar7A, dey, txa, jam92, tya, txs,
      tay, tax, jamB2, clv, tsx, iny, dex, jamD2, cld, nopStarDA, inx, nop, jamF2, sed, nopStarFA]

end Sys2Proof.Laws.EncodingRow

namespace Sys2Proof

/-- The decoder on an opcode byte and exactly the operand bytes its row waits for. -/
theorem decode_of_length_eq {op : Byte} {operands : List Byte} (rest : List Byte)
    (h : operands.length = (shapeOf op).operandBytes) :
    decode (op :: (operands ++ rest)) = .ok ((shapeOf op).instr (operands.getD 0 0) (operands.getD 1 0), rest) := by
  have hle := operandBytes_le op
  match operands with
  | [] => simp [decode, ← h]
  | [b1] => simp [decode, ← h]
  | [b1, b2] => simp [decode, ← h]
  | b1 :: b2 :: b3 :: more => simp [← h] at hle

/-- Settles O2: the opcode of an instruction selects its row, which waits for its operand bytes and gives it back. -/
theorem decodeUndoesEncode : Obligations.DecodeUndoesEncode := by
  intro i rest hwf
  obtain ⟨hlength, hinstr⟩ := Laws.EncodingRow.statement i hwf
  rw [encode, List.cons_append, decode_of_length_eq rest hlength, hinstr]

/-- Settles O3: what the decoder answers comes from a row, and every row gives back its opcode and its operand bytes. -/
theorem encodeUndoesDecode : Obligations.EncodeUndoesDecode := by
  intro bytes rest i h
  obtain ⟨op, b1, b2, rfl, rfl⟩ := decode_ok h
  obtain ⟨hwf, hoperands⟩ := shapeOf_faithful op b1 b2
  obtain ⟨-, -, hop⟩ := shapeOf_instr op b1 b2
  exact ⟨hwf, by rw [encode, hop, hoperands, List.cons_append]⟩

/-- Settles O4: mnemonic and length are the row's, and the decoder takes as many bytes as the row waits for. -/
theorem everyOpcodeDecodesAtItsOwnLength : Obligations.EveryOpcodeDecodesAtItsOwnLength := by
  intro op
  have hle := operandBytes_le op
  refine ⟨(shapeOf op).mnemonic, (shapeOf op).operandBytes + 1, by omega, by omega, fun b1 b2 rest => ?_⟩
  obtain ⟨c1, c2, hdecode, -, -⟩ := decode_cons op b1 b2 rest
  obtain ⟨hmnemonic, hlength, -⟩ := shapeOf_instr op c1 c2
  exact ⟨_, by simpa using hdecode, hmnemonic, hlength⟩

/-! ## The two regular groups -/

/-- The instruction decoded from three bytes; a row ignores the operand bytes it does not wait for. -/
theorem eq_instr_of_decode {op b1 b2 : Byte} {rest : List Byte} {i : Instr} (h : decode [op, b1, b2] = .ok (i, rest)) :
    i = (shapeOf op).instr b1 b2 := by
  obtain ⟨c1, c2, hdecode, h1, h2⟩ := decode_cons op b1 b2 []
  obtain ⟨rfl, -⟩ : i = (shapeOf op).instr c1 c2 ∧ _ := by simpa [h] using hdecode
  revert h1 h2
  cases shapeOf op <;> simp +contextual [Shape.operandBytes, Shape.instr]

/-- The operand of the arithmetic/logic group, by `opcode & 0x1C` (R141). -/
def arithmeticOperand (op b1 b2 : Byte) : Operand :=
  match op &&& 0x1C with
  | 0x00 => .src (.mem (.izx b1))
  | 0x04 => .src (.mem (.zp b1))
  | 0x08 => .src (.imm b1)
  | 0x0C => .src (.mem (.abs (mkWord b2 b1)))
  | 0x10 => .src (.mem (.izy b1))
  | 0x14 => .src (.mem (.zpx b1))
  | 0x18 => .src (.mem (.aby (mkWord b2 b1)))
  | _ => .src (.mem (.abx (mkWord b2 b1)))

/-- The operations of the arithmetic/logic group, by bits 7:5 (R141). -/
def arithmeticMnemonics : List Mnemonic := [.ora, .and, .eor, .adc, .sta, .lda, .cmp, .sbc]

/-- The form the arithmetic/logic group gives an opcode, 0x89 excepted (R141, R143). -/
def arithmeticForm (op b1 b2 : Byte) : Form :=
  if op = 0x89 then ⟨.nopStar, .src (.imm b1)⟩
  else ⟨arithmeticMnemonics.getD (op >>> 5).toNat .ora, arithmeticOperand op b1 b2⟩

/-- A byte whose low bits, `mask` of them, are `low`, is `low` and a multiple of `mask + 1`. -/
theorem eq_ofNat_of_and {op mask low : Byte} (bits : Nat) (hmask : mask.toNat = 2 ^ bits - 1) (h : op &&& mask = low) :
    op = BitVec.ofNat 8 (2 ^ bits * (op.toNat / 2 ^ bits) + low.toNat) := by
  have hlow : low.toNat = op.toNat % 2 ^ bits := by
    rw [← h, BitVec.toNat_and, hmask, Nat.and_two_pow_sub_one_eq_mod]
  rw [hlow, Nat.div_add_mod, BitVec.ofNat_toNat, BitVec.setWidth_eq]

/-- R141: the opcodes with `cc = 01` are those of the arithmetic/logic group. -/
theorem form_of_arithmetic {op : Byte} (h : op &&& 0x03 = 0x01) (b1 b2 : Byte) :
    ((shapeOf op).instr b1 b2).form = arithmeticForm op b1 b2 := by
  rw [eq_ofNat_of_and 2 rfl h]
  have hk : op.toNat / 2 ^ 2 < 64 := by omega
  generalize op.toNat / 2 ^ 2 = k at hk
  interval_cases k <;> rfl

/-- The operand of the shift/increment group's memory forms, by `opcode & 0x18`; STX and LDX index by Y (R142). -/
def shiftOperand (op b1 b2 : Byte) : Operand :=
  match op &&& 0x18 with
  | 0x00 => .src (.mem (.zp b1))
  | 0x08 => .src (.mem (.abs (mkWord b2 b1)))
  | 0x10 => if op = 0x96 ∨ op = 0xB6 then .src (.mem (.zpy b1)) else .src (.mem (.zpx b1))
  | _ => if op = 0xBE then .src (.mem (.aby (mkWord b2 b1))) else .src (.mem (.abx (mkWord b2 b1)))

/-- The operations of the shift/increment group, by bits 7:5 (R142). -/
def shiftMnemonics : List Mnemonic := [.asl, .rol, .lsr, .ror, .stx, .ldx, .dec, .inc]

/-- The form the shift/increment group gives an opcode, 0x9E excepted (R142, R143). -/
def shiftForm (op b1 b2 : Byte) : Form :=
  if op = 0x9E then ⟨.shx, .src (.mem (.aby (mkWord b2 b1)))⟩
  else ⟨shiftMnemonics.getD (op >>> 5).toNat .asl, shiftOperand op b1 b2⟩

/-- R142: the opcodes with `cc = 10` and bit 2 set are those of the shift/increment group's memory forms. -/
theorem form_of_shift {op : Byte} (h : op &&& 0x07 = 0x06) (b1 b2 : Byte) :
    ((shapeOf op).instr b1 b2).form = shiftForm op b1 b2 := by
  rw [eq_ofNat_of_and 3 rfl h]
  have hk : op.toNat / 2 ^ 3 < 32 := by omega
  generalize op.toNat / 2 ^ 3 = k at hk
  interval_cases k <;> rfl

/-- Bits 7:5 of an opcode select one of eight. -/
theorem getElem?_operation {l : List Mnemonic} (hl : l.length = 8) (op : Byte) (m : Mnemonic) :
    l[(op >>> 5).toNat]? = some (l.getD (op >>> 5).toNat m) := by
  have hlt : (op >>> 5).toNat < l.length := by
    rw [hl, BitVec.toNat_ushiftRight, Nat.shiftRight_eq_div_pow]
    omega
  rw [List.getD_eq_getElem?_getD, List.getElem?_eq_getElem hlt, Option.getD_some]

/-- Operand and length of an instruction of a known form. -/
theorem operand_and_length {i : Instr} {m : Mnemonic} {o o' : Operand} {n : Nat} (hi : i.form = ⟨m, o⟩) (ho : o = o')
    (hn : o'.length = n) : i.operand = o' ∧ i.length = n := by
  subst ho hn
  exact ⟨congrArg Form.operand hi, congrArg Form.length hi⟩

/-- Settles O5: both groups are their forms, opcode by opcode, and a form is read off clause by clause. -/
theorem opcodeGroupsFollowTheirMasks : Obligations.OpcodeGroupsFollowTheirMasks := by
  refine ⟨fun op b1 b2 rest i hcc h => ?_, fun op b1 b2 rest i hcc h => ?_⟩
  · have hi : i.form = arithmeticForm op b1 b2 := eq_instr_of_decode h ▸ form_of_arithmetic hcc b1 b2
    refine ⟨fun e => by rw [hi, arithmeticForm, if_pos e], fun hne => ?_⟩
    rw [arithmeticForm, if_neg hne] at hi
    have hoperation : arithmeticMnemonics[(op >>> 5).toNat]? = some i.mnemonic := by
      rw [Instr.mnemonic, hi]
      exact getElem?_operation rfl op .ora
    refine ⟨hoperation, ?_, ?_, ?_, ?_, ?_, ?_, ?_, ?_⟩ <;>
      exact fun e => operand_and_length hi (by rw [arithmeticOperand, e]; rfl) rfl
  · have hi : i.form = shiftForm op b1 b2 := eq_instr_of_decode h ▸ form_of_shift hcc b1 b2
    refine ⟨fun e => by rw [hi, shiftForm, if_pos e], fun hne => ?_⟩
    rw [shiftForm, if_neg hne] at hi
    have hoperation : shiftMnemonics[(op >>> 5).toNat]? = some i.mnemonic := by
      rw [Instr.mnemonic, hi]
      exact getElem?_operation rfl op .asl
    refine ⟨hoperation, ?_, ?_, fun e => ⟨?_, ?_⟩, fun e => ⟨?_, ?_⟩⟩
    · exact fun e => operand_and_length hi (by rw [shiftOperand, e]; rfl) rfl
    · exact fun e => operand_and_length hi (by rw [shiftOperand, e]; rfl) rfl
    · exact fun hy => operand_and_length hi (by simp only [shiftOperand, e, if_pos hy]; rfl) rfl
    · exact fun hx => operand_and_length hi (by simp only [shiftOperand, e, if_neg (not_or.mpr hx)]; rfl) rfl
    · exact fun hy => operand_and_length hi (by simp only [shiftOperand, e, if_pos hy]; rfl) rfl
    · exact fun hx => operand_and_length hi (by simp only [shiftOperand, e, if_neg hx]; rfl) rfl

/-- Settles O1: the eight words, decoded. -/
theorem sampleWordsDecode : Obligations.SampleWordsDecode := ⟨rfl, rfl, rfl, rfl, rfl, rfl, rfl, rfl⟩

end Sys2Proof
end

section
/-! What every step keeps and how a step can stop (60_exceptions R410): invariants that every register write, video call and
completed bus write keeps. -/

namespace Sys2Proof.Machine

/-! ## Mapper, cartridge, parameters, frame buffer -/

/-- The same machine, the same cartridge in it, the same frame buffer of the host. -/
def SameSetup (s t : State) : Prop :=
  t.mapper = s.mapper ∧ t.cart = s.cart ∧ t.params = s.params ∧ t.frameBuffer = s.frameBuffer

theorem SameSetup.refl (s : State) : SameSetup s s := ⟨rfl, rfl, rfl, rfl⟩

theorem SameSetup.trans {s t u : State} (h : SameSetup s t) (h' : SameSetup t u) : SameSetup s u := by
  obtain ⟨hmapper, hcart, hparams, hbuffer⟩ := h
  obtain ⟨hmapper', hcart', hparams', hbuffer'⟩ := h'
  exact ⟨hmapper'.trans hmapper, hcart'.trans hcart, hparams'.trans hparams, hbuffer'.trans hbuffer⟩

/-- A bus write that completes keeps the setup. -/
theorem busWrite_sameSetup {a : Word} {v : Byte} {s t : State} (hw : busWrite a v s = .next t) : SameSetup s t := by
  rw [busWrite_frame hw]
  exact .refl s

/-- A predicate of memory, the MMC1 state and the setup is kept by a step when every bus write that completes keeps it. -/
theorem stepClosed_of_congr {P : State → Prop}
    (hcongr : ∀ {s t}, P s → t.mem = s.mem → t.mmc1 = s.mmc1 → SameSetup s t → P t)
    (hwrite : ∀ {a v s t}, P s → busWrite a v s = .next t → P t) : StepClosed P where
  a _ h := hcongr h rfl rfl (.refl _)
  x _ h := hcongr h rfl rfl (.refl _)
  y _ h := hcongr h rfl rfl (.refl _)
  sp _ h := hcongr h rfl rfl (.refl _)
  pc _ h := hcongr h rfl rfl (.refl _)
  sr _ h := hcongr h rfl rfl (.refl _)
  video _ h := hcongr h rfl rfl (.refl _)
  icount _ h := hcongr h rfl rfl (.refl _)
  returns _ h := hcongr h rfl rfl (.refl _)
  write := hwrite

/-- Everything a step is made of keeps the setup. -/
theorem stepClosed_sameSetup (s : State) : StepClosed (SameSetup s) :=
  stepClosed_of_congr (fun h _ _ h' => h.trans h') fun h hw => h.trans (busWrite_sameSetup hw)

/-- Settles O15: the setup is kept by everything a step is made of. -/
theorem stepKeepsMapperCartridgeAndParameters : Obligations.StepKeepsMapperCartridgeAndParameters :=
  fun s _ => (stepClosed_sameSetup s).step (.refl s)

/-! ## Well-formed states -/

/-- A state is well formed when its memory is in canonical form and every MMC1 write counter is below 5. -/
theorem wf_iff_forall_reg {s : State} : s.Wf ↔ s.mem.wf ∧ ∀ r, (s.mmc1.reg r).count < 5 :=
  ⟨fun ⟨hm, hc, h0, h1, hp⟩ => ⟨hm, fun r => by cases r <;> assumption⟩,
    fun ⟨hm, h⟩ => ⟨hm, h .control, h .chrBank0, h .chrBank1, h .prgBank⟩⟩

/-- A serial write keeps every write counter below 5. -/
theorem Mmc1StepsTo.count_lt {r : MapperReg} {old new : Mmc1} (h : Mmc1StepsTo r old new)
    (hold : ∀ r, (old.reg r).count < 5) (r' : MapperReg) : (new.reg r').count < 5 := by
  by_cases e : r' = r
  · exact e ▸ h.2 (hold r)
  · exact h.1 r' e ▸ hold r'

/-- A bus write that completes keeps a state well formed. -/
theorem busWrite_keeps_wf {a : Word} {v : Byte} {s t : State} (h : s.Wf) (hw : busWrite a v s = .next t) : t.Wf := by
  obtain ⟨hm, hc⟩ := wf_iff_forall_reg.mp h
  refine wf_iff_forall_reg.mpr ?_
  obtain ⟨-, w, rfl⟩ | ⟨-, hl, -, rfl⟩ | ⟨-, -, rfl⟩ | ⟨-, -, m, hmmc1, ⟨w, rfl⟩ | ⟨low, high, -, -, rfl⟩⟩ := busWrite_next hw
  · exact ⟨hm, hc⟩
  · exact ⟨put_wf hm (by omega), hc⟩
  · exact ⟨hm, hc⟩
  · exact ⟨hm, hmmc1.count_lt hc⟩
  · exact ⟨copies_wf (s := s.setMmc1 m) hm low high, hmmc1.count_lt hc⟩

/-- Everything a step is made of keeps a state well formed. -/
theorem stepClosed_wf : StepClosed State.Wf :=
  stepClosed_of_congr
    (fun h hmem hmmc1 _ => by
      rw [wf_iff_forall_reg] at h ⊢
      rwa [hmem, hmmc1])
    busWrite_keeps_wf

/-- Settles O13: the invariant is kept by everything a step is made of. -/
theorem stepKeepsWellFormed : Obligations.StepKeepsWellFormed :=
  fun _ _ => stepClosed_wf.step

/-- Settles O12: the reset memory is empty and every counter is 0. -/
theorem resetIsWellFormed : Obligations.ResetIsWellFormed :=
  wf_iff_forall_reg.mpr ⟨nil_wf, fun r => by cases r <;> decide⟩

/-! ## The ROM window -/

/-- A cartridge with its whole image, two banks of which stand in the ROM window. -/
def RomIntact (s : State) : Prop := s.cart.Wf ∧ RomShowsBanks s

/-- A bank is still shown where the cartridge and the ROM window are as they were. -/
theorem ShowsBank.congr {s t : State} {dst b : Nat} (h : ShowsBank s dst b) (hcart : t.cart = s.cart)
    (hdst : 0x8000 ≤ dst) (hmem : ∀ a, 0x8000 ≤ a → t.mem.byteAt a = s.mem.byteAt a) : ShowsBank t dst b := by
  obtain ⟨hb, hbytes⟩ := h
  rw [ShowsBank, hcart]
  exact ⟨hb, fun k hk => (hmem _ (by omega)).trans (hbytes k hk)⟩

/-- The window is intact where the cartridge and the bytes of the window are as they were. -/
theorem RomIntact.congr {s t : State} (h : RomIntact s) (hcart : t.cart = s.cart)
    (hmem : ∀ a, 0x8000 ≤ a → t.mem.byteAt a = s.mem.byteAt a) : RomIntact t := by
  obtain ⟨hwf, low, high, hlow, hhigh⟩ := h
  exact ⟨hcart ▸ hwf, low, high, hlow.congr hcart (by omega) hmem, hhigh.congr hcart (by omega) hmem⟩

/-- A bus write that completes keeps the window intact: below it a byte of RAM changes at most, and a commit copies two whole
banks of the image. -/
theorem busWrite_keeps_romIntact {a : Word} {v : Byte} {s t : State} (h : RomIntact s) (hw : busWrite a v s = .next t) :
    RomIntact t := by
  obtain ⟨-, w, rfl⟩ | ⟨-, hl, -, rfl⟩ | ⟨-, -, rfl⟩ | ⟨-, -, m, -, ⟨w, rfl⟩ | ⟨low, high, hlow, hhigh, rfl⟩⟩ := busWrite_next hw
  · exact h
  · exact h.congr rfl fun b hb => byteAt_put_ne (by omega)
  · exact h
  · exact h
  · exact ⟨h.1, low, high, showsBank_copies (s := s.setMmc1 m) h.1 hlow hhigh⟩

/-- Everything a step is made of keeps the window intact. -/
theorem stepClosed_romIntact : StepClosed RomIntact :=
  stepClosed_of_congr (fun h hmem _ ⟨_, hcart, _, _⟩ => h.congr hcart fun _ _ => by rw [hmem]) busWrite_keeps_romIntact

/-- Settles O18: the window is kept intact by everything a step is made of. -/
theorem stepKeepsRomShowingWholeBanks : Obligations.StepKeepsRomShowingWholeBanks :=
  fun _ _ hwf hrom hstep => (stepClosed_romIntact.step ⟨hwf, hrom⟩ hstep).2

/-! ## Bytes no write reaches -/

/-- A bus write that completes leaves the flat bytes behind the device ports (R82, R83) alone. -/
theorem busWrite_keeps_portByte {a : Word} {v : Byte} {s t : State} {p : Nat}
    (hp : (0x2000 ≤ p ∧ p ≤ 0x2007) ∨ p = 0x4014) (hw : busWrite a v s = .next t) :
    t.mem.byteAt p = s.mem.byteAt p := by
  obtain ⟨-, w, rfl⟩ | ⟨hf, -, hd, rfl⟩ | ⟨-, -, rfl⟩ | ⟨-, -, m, -, ⟨w, rfl⟩ | ⟨low, high, -, -, rfl⟩⟩ := busWrite_next hw
  · rfl
  · refine byteAt_put_ne fun e => ?_
    subst e
    exact hp.elim hf fun e => hd (BitVec.eq_of_toNat_eq e)
  · rfl
  · rfl
  · rw [byteAt_copyPrg_below high _ (by omega), byteAt_copyPrg_below low _ (by omega)]
    rfl

/-- Everything a step is made of leaves a byte behind the device ports alone. -/
theorem stepClosed_portByte {p : Nat} (hp : (0x2000 ≤ p ∧ p ≤ 0x2007) ∨ p = 0x4014) (v : Byte) :
    StepClosed fun s => s.mem.byteAt p = v :=
  stepClosed_of_congr (fun h hmem _ _ => hmem ▸ h) fun h hw => (busWrite_keeps_portByte hp hw).trans h

/-- Settles O16: the byte is kept by everything a step is made of. -/
theorem stepNeverStoresBehindTheDevicePorts : Obligations.StepNeverStoresBehindTheDevicePorts :=
  fun _ _ _ hp => (stepClosed_portByte hp _).step rfl

/-- No MMC1, and the MMC1 state and the ROM window of `s`. -/
def SameRom (s t : State) : Prop :=
  t.mapper ≠ .mmc1 ∧ t.mmc1 = s.mmc1 ∧ ∀ a, 0x8000 ≤ a → t.mem.byteAt a = s.mem.byteAt a

/-- Without an MMC1 a bus write that completes changes the video unit or a byte of RAM only. -/
theorem busWrite_keeps_sameRom {a : Word} {v : Byte} {s t u : State} (h : SameRom s t) (hw : busWrite a v t = .next u) :
    SameRom s u := by
  obtain ⟨hmapper, hmmc1, hmem⟩ := h
  obtain ⟨-, w, rfl⟩ | ⟨-, hl, -, rfl⟩ | ⟨-, -, rfl⟩ | ⟨-, hmmc1, -⟩ := busWrite_next hw
  · exact ⟨hmapper, hmmc1, hmem⟩
  · exact ⟨hmapper, hmmc1, fun b hb => (byteAt_put_ne (by omega)).trans (hmem b hb)⟩
  · exact ⟨hmapper, hmmc1, hmem⟩
  · exact absurd hmmc1 hmapper

/-- Everything a step is made of keeps the ROM window where no MMC1 is. -/
theorem stepClosed_sameRom (s : State) : StepClosed (SameRom s) :=
  stepClosed_of_congr
    (fun ⟨hmapper, hmmc1, hmem⟩ emem emmc1 ⟨emapper, _, _, _⟩ =>
      ⟨emapper ▸ hmapper, emmc1.trans hmmc1, fun a ha => emem ▸ hmem a ha⟩)
    busWrite_keeps_sameRom

/-- Settles O17: the ROM window is kept by everything a step is made of. -/
theorem romIsConstantWithoutMmc1 : Obligations.RomIsConstantWithoutMmc1 :=
  fun s _ hmapper hstep => ((stepClosed_sameRom s).step ⟨hmapper, rfl, fun _ _ => rfl⟩ hstep).2

/-! ## How a step stops -/

/-- A fault of a step comes from its fetch or from its instruction. -/
theorem step_fault {s : State} {f : Fault} (h : step s = .fault f) :
    fetchInstr (serviceBlank s) = .fault f ∨ ∃ i, exec i (serviceBlank s) = .fault f := by
  have hm : s.mapper ≠ .none := fun e => by simp [step, e] at h
  rw [step_loaded hm] at h
  cases hfetch : fetchInstr (serviceBlank s) with
  | next i =>
    cases hexec : exec i (serviceBlank s) <;> simp only [hfetch, hexec, andThen] at h
    · cases h
    · exact .inr ⟨i, hexec.trans h⟩
    · cases h
  | fault f' => exact .inl (by simpa [hfetch, andThen] using h)
  | refused r => simp [hfetch, andThen] at h

/-- A refusal of a step comes before a load, or is one a parameter asks for, at its decode. -/
theorem step_refused {s : State} {r : Refusal} (h : step s = .refused r) :
    (s.mapper = .none ∧ r = .notLoaded s) ∨ ∃ m, refusalOf m (serviceBlank s) = some r := by
  by_cases hm : s.mapper = .none
  · refine .inl ⟨hm, ?_⟩
    simpa [step, hm, eq_comm] using h
  right
  rw [step_loaded hm] at h
  obtain ⟨i, hfetch, hno⟩ | ⟨a, -, hfetch⟩ | ⟨m, r', hr, hfetch⟩ := fetchInstr_cases (serviceBlank s)
  · have hexec := (stepClosed_sameSetup s).exec i ((stepClosed_sameSetup s).serviceBlank (.refl s))
    cases e : exec i (serviceBlank s) <;> simp only [hfetch, e, andThen] at h hexec
    · cases h
    · cases h
    · simp [hno] at hexec
  · simp [hfetch, andThen] at h
  · simp only [hfetch, andThen, Host.Outcome.refused.injEq] at h
    exact ⟨m, h ▸ hr⟩

/-- Settles O19: a fetch faults in the video window only, an instruction faults only with a bus write, and a refusal is decided
from the opcode and the parameters. -/
theorem stepStopsOnlyAsListed : Obligations.StepStopsOnlyAsListed := by
  refine ⟨fun s f h => ?_, fun s r h => ?_⟩
  · have hsetup : SameSetup s (serviceBlank s) := (stepClosed_sameSetup s).serviceBlank (.refl s)
    obtain hfetch | ⟨i, hexec⟩ := step_fault h
    · left
      obtain ⟨i, e, -⟩ | ⟨a, ha, e⟩ | ⟨m, r, -, e⟩ := fetchInstr_cases (serviceBlank s) <;> rw [e] at hfetch <;>
        cases hfetch
      exact ⟨a, _, rfl, ha⟩
    · right
      have := (stepClosed_sameSetup s).exec i hsetup
      rw [hexec] at this
      obtain ⟨a, v, u, ⟨hmapper, hcart, -, -⟩, hw⟩ := this
      obtain ⟨hcommit, bank, rfl, hbank⟩ := busWrite_fault hw
      exact ⟨_, bank, _, rfl, hmapper ▸ hcommit.1, hcart ▸ hbank⟩
  · obtain ⟨-, -, hparams, -⟩ : SameSetup s (serviceBlank s) := (stepClosed_sameSetup s).serviceBlank (.refl s)
    obtain ⟨hm, rfl⟩ | ⟨m, hr⟩ := step_refused h
    · exact .inl ⟨rfl, hm⟩
    · obtain ⟨-, rfl, hbrk⟩ | ⟨hclass, rfl, hunlisted⟩ := refusalOf_some hr
      · exact .inr (.inl ⟨rfl, hparams ▸ hbrk⟩)
      · exact .inr (.inr ⟨m, rfl, hclass, hparams ▸ hunlisted⟩)

/-! ## Instructions -/

/-- What of the setup and of the harness an instruction keeps. -/
def SameHarness (s t : State) : Prop := SameSetup s t ∧ t.icount = s.icount ∧ t.returns = s.returns

theorem SameHarness.refl (s : State) : SameHarness s s := ⟨.refl s, rfl, rfl⟩

/-- Everything an instruction is made of keeps the setup and the harness. -/
theorem closed_sameHarness (s : State) : Closed (SameHarness s) where
  a _ h := h
  x _ h := h
  y _ h := h
  sp _ h := h
  pc _ h := h
  sr _ h := h
  video _ h := h
  write h hw := by
    rw [busWrite_frame hw]
    exact h

/-- An instruction that completes keeps the setup and the harness. -/
theorem exec_sameHarness {i : Instr} {s t : State} (h : exec i s = .next t) : SameHarness s t := by
  have := (closed_sameHarness s).exec i (.refl s)
  rwa [h] at this

/-- No parameter refuses any opcode. -/
theorem refusalOf_eq_none_of_noRefusal {s : State} (h : NoRefusal s.params) (m : Mnemonic) : refusalOf m s = none :=
  refusalOf_none (fun _ => h.1) (fun _ => h.2)

/-- Settles O20: without an MMC1 no bus write commits, so none faults, and no parameter refuses. -/
theorem everyInstructionCompletesWithoutMmc1 : Obligations.EveryInstructionCompletesWithoutMmc1 := by
  intro i s hmapper hparams
  have := (closed_sameHarness s).exec i (.refl s)
  cases e : exec i s with
  | next t =>
    obtain ⟨⟨-, -, hp, -⟩, hcount, -⟩ := exec_sameHarness e
    exact ⟨t, rfl, exec_next_bit5 e, hcount, hp⟩
  | fault f =>
    rw [e] at this
    obtain ⟨a, v, u, ⟨⟨hu, -⟩, -⟩, hw⟩ := this
    obtain ⟨⟨hmmc1, -⟩, -⟩ := busWrite_fault hw
    exact absurd (hu ▸ hmmc1) hmapper
  | refused r =>
    rw [e, refusalOf_eq_none_of_noRefusal hparams] at this
    cases this

end Sys2Proof.Machine
end

section
/-! The step (60_exceptions R390-R397, R425): what stops it before its instruction runs, what the pending blank does at its start,
and what the counter does at its end. -/

namespace Sys2Proof.Machine

/-- Settles O8: the gate's three arms. -/
theorem gateFollowsItsParameter : Obligations.GateFollowsItsParameter := fun _ => ⟨rfl, rfl, rfl⟩

/-- Settles O6: the fetch answers the decoded instruction, or the refusal that its execution would answer. -/
theorem stepRunsTheDecodedInstruction : Obligations.StepRunsTheDecodedInstruction := by
  intro s i rest hmapper t hdecode hfetchable
  rw [step_loaded hmapper, fetchInstr_of_decode hdecode hfetchable]
  cases hr : refusalOf i.mnemonic t with
  | some r => simp only [andThen, exec_of_refusal hr]
  | none => simp only [andThen]; rfl

/-! ## Stops before the instruction -/

/-- An opcode that can be fetched and is refused is the refusal (R170). -/
theorem fetchInstr_of_refusal {t : State} {r : Refusal} (hf : Fetchable t.pc)
    (hr : refusalOf (shapeOf (t.mem.byteAt t.pc.toNat)).mnemonic t = some r) : fetchInstr t = .refused r := by
  simp only [fetchInstr, fetchByte_of_fetchable hf, andThen, hr]

/-- An operand byte that the length asks for and the video window holds is a fault (R88). -/
theorem fetchInstr_of_first_operand {t : State} (hf : Fetchable t.pc)
    (hr : refusalOf (shapeOf (t.mem.byteAt t.pc.toNat)).mnemonic t = none)
    (hn : 1 ≤ (shapeOf (t.mem.byteAt t.pc.toNat)).operandBytes) (h1 : ¬Fetchable (t.pc + 1)) :
    fetchInstr t = .fault (.fetchFromMMIO (t.pc + 1) t) := by
  simp only [fetchInstr, fetchByte_of_fetchable hf, andThen, hr]
  split
  · omega
  · rw [fetchByte_of_not_fetchable h1]
  · rw [fetchByte_of_not_fetchable h1]

/-- The second operand byte, the first having been fetched (R88). -/
theorem fetchInstr_of_second_operand {t : State} (hf : Fetchable t.pc)
    (hr : refusalOf (shapeOf (t.mem.byteAt t.pc.toNat)).mnemonic t = none)
    (hn : 2 ≤ (shapeOf (t.mem.byteAt t.pc.toNat)).operandBytes) (h1 : Fetchable (t.pc + 1))
    (h2 : ¬Fetchable (t.pc + 2)) : fetchInstr t = .fault (.fetchFromMMIO (t.pc + 2) t) := by
  simp only [fetchInstr, fetchByte_of_fetchable hf, andThen, hr]
  split
  · omega
  · omega
  · rw [fetchByte_of_fetchable h1, fetchByte_of_not_fetchable h2]

/-- A fetch that faults is the fault of its step. -/
theorem step_of_fetch_fault {s : State} {f : Fault} (hm : s.mapper ≠ .none) (h : fetchInstr (serviceBlank s) = .fault f) :
    step s = .fault f := by
  rw [step_loaded hm, h]
  rfl

/-- A fetch that is refused is the refusal of its step. -/
theorem step_of_fetch_refused {s : State} {r : Refusal} (hm : s.mapper ≠ .none)
    (h : fetchInstr (serviceBlank s) = .refused r) : step s = .refused r := by
  rw [step_loaded hm, h]
  rfl

/-- Settles O7: the fetch reads the opcode, decides the refusal, and reads the operand bytes, in this order. -/
theorem stopsBeforeExecutionComeInOrder : Obligations.StopsBeforeExecutionComeInOrder := by
  intro s t sh
  refine ⟨fun hm => by simp [step, hm], fun hm hf => ?_, fun hm hf => ⟨fun hbrk hp => ?_, fun hclass hp => ?_,
    fun hbrk hunlisted => ?_⟩⟩
  · exact step_of_fetch_fault hm (by rw [fetchInstr, fetchByte_of_not_fetchable hf]; rfl)
  · exact step_of_fetch_refused hm (fetchInstr_of_refusal hf (by rw [hbrk, refusalOf_brk, if_pos hp]))
  · exact step_of_fetch_refused hm (fetchInstr_of_refusal hf (by rw [refusalOf_unlisted hclass, if_pos hp]))
  · have hr := refusalOf_none hbrk hunlisted
    exact ⟨fun hn h1 => step_of_fetch_fault hm (fetchInstr_of_first_operand hf hr hn h1),
      fun hn h1 h2 => step_of_fetch_fault hm (fetchInstr_of_second_operand hf hr hn h1 h2)⟩

/-! ## The pending blank -/

/-- The NMI entry (R392): the frame, SP, I, PC from 0xFFFA, the counter; nothing else. -/
theorem enterNmi_eq (s : State) :
    enterNmi s =
      { s with
        mem := framePushed s.mem s.sp s.pc (statusForNmi s.sr)
        sp := s.sp - 3
        sr := srWith s.sr .i true
        pc := mkWord (s.mem.byteAt 0xFFFB) (s.mem.byteAt 0xFFFA)
        icount := 0 } := by
  rw [enterNmi, enterInterrupt_eq _ _ (by decide)]
  rfl

/-- Settles O9: the step starts with the NMI entry, between the two calls about the blank. -/
theorem pendingBlankEntersThroughTheNmiVector : Obligations.PendingBlankEntersThroughTheNmiVector := by
  intro s hblank hgate
  refine ⟨srWith s.sr .i true, ?_, by simp, fun f hf => by simp [hf, State.flag], ?_⟩
  · rw [serviceBlank_eq, if_pos hblank, if_pos hgate, enterNmi_eq]
    rfl
  · simp

/-- Settles O10: with the gate closed the start of a step is its calls about the blank only. -/
theorem blankIsLostWhenTheGateIsClosed : Obligations.BlankIsLostWhenTheGateIsClosed := by
  refine fun s => ⟨fun hblank hgate => ?_, fun hblank => ?_⟩
  · rw [serviceBlank_eq, if_pos hblank, if_neg (by simp [hgate])]
    rfl
  · rw [serviceBlank_eq, if_neg (by simp [hblank])]
    rfl

/-! ## The counter -/

/-- The start of a step restarts the counter when it takes the NMI entry (R392), and leaves it otherwise. -/
theorem serviceBlank_icount (s : State) :
    (serviceBlank s).icount =
      if s.video.blank = true ∧ gateOpen s.params.nmiGate (s.flag .i) = true then 0 else s.icount := by
  rw [serviceBlank_eq]
  by_cases hblank : s.video.blank = true
  · by_cases hgate : gateOpen s.params.nmiGate (s.flag .i) = true
    · simp [hblank, hgate, enterNmi, videoSetBlank]
    · simp [hblank, hgate, videoSetBlank, videoCall]
  · simp [hblank, videoCall]

/-- The start of a step leaves the results of earlier calls alone. -/
theorem serviceBlank_returns (s : State) : (serviceBlank s).returns = s.returns := by
  rw [serviceBlank_eq, enterNmi_eq]
  split
  · split <;> rfl
  · rfl

/-- Settles O11: the end of a step counts from where its start left the counter, which the instruction keeps. -/
theorem stepCountsAndSignals : Obligations.StepCountsAndSignals := by
  intro s t hstep
  obtain ⟨-, i, u, hfetch, hexec, rfl⟩ := step_next hstep
  refine ⟨i, u, hfetch, hexec, ?_⟩
  obtain ⟨⟨-, -, hparams, hbuffer⟩, hcount, hreturns⟩ := exec_sameHarness hexec
  obtain ⟨-, -, hparams', hbuffer'⟩ : SameSetup s (serviceBlank s) := (stepClosed_sameSetup s).serviceBlank (.refl s)
  intro n vblank ready ends
  have hn : u.icount + 1 = n := by rw [hcount, serviceBlank_icount]
  have hend : endStep u =
      { u with
        icount := n
        returns := decide ready :: s.returns
        video := { u.video with
          blank := decide vblank || u.video.blank
          calls := (if ready then [.render s.frameBuffer] else []) ++ (if vblank then [.setBlank true] else []) ++
            u.video.calls } } := by
    rw [endStep_eq, hn, hparams, hparams', hbuffer, hbuffer', hreturns, serviceBlank_returns]
    simp only [periodElapsed, decide_eq_true_eq]
    rfl
  refine ⟨fun hv hr => ?_, fun hv hr => ?_, fun hv hr => ?_, fun hv hr => ?_⟩ <;>
    simp [ends, hend, hv, hr]

end Sys2Proof.Machine
end

section
/-! Memory, the bus and the addressing modes (10_state R42, 20_memory R80-R94, 40_addressing R172-R181). -/

namespace Sys2Proof.Machine

/-! ## The flat array -/

/-- Below its first cell a memory in canonical form has no byte listed. -/
theorem byteAt_below {m : Memory} {a : Nat} (h : ∀ c ∈ m, a < c.1) : m.byteAt a = unlistedByte := by
  simpa using byteAt_append_of_mem_left (n := []) fun c hc => by have := h c hc; omega

/-- A memory in canonical form without its first cell. -/
theorem wf_of_cons {c : Host.Cell} {m : Memory} (h : Memory.wf (c :: m)) :
    m.wf ∧ (∀ d ∈ m, c.1 < d.1) ∧ c.2 ≠ unlistedByte := by
  obtain ⟨hsorted, hcells⟩ := h
  obtain ⟨hlt, hsorted⟩ := List.pairwise_cons.mp hsorted
  exact ⟨⟨hsorted, fun d hd => hcells d (by simp [hd])⟩, hlt, (hcells c (by simp)).2⟩

/-- The first cell's address reads as its byte. -/
theorem byteAt_cons_self (k : Nat) (v : Byte) (m : Memory) : Memory.byteAt ((k, v) :: m) k = v := by
  simp [Memory.byteAt]

/-- Two memories in canonical form that read alike have their first cell at the same address, and it holds the same byte. -/
theorem head_eq_of_byteAt {k l : Nat} {v w : Byte} {m n : Memory} (hm : Memory.wf ((k, v) :: m))
    (hn : Memory.wf ((l, w) :: n)) (h : ∀ a, Memory.byteAt ((k, v) :: m) a = Memory.byteAt ((l, w) :: n) a) :
    k = l ∧ v = w := by
  obtain ⟨-, hlm, hv⟩ := wf_of_cons hm
  obtain ⟨-, hln, hw⟩ := wf_of_cons hn
  obtain hlt | rfl | hlt := lt_trichotomy k l
  · refine absurd ?_ hv
    rw [← byteAt_cons_self k v m, h]
    exact byteAt_below (by simpa [hlt] using fun _ _ hc => hlt.trans (hln _ hc))
  · exact ⟨rfl, by simpa [byteAt_cons_self] using h k⟩
  · refine absurd ?_ hw
    rw [← byteAt_cons_self l w n, ← h]
    exact byteAt_below (by simpa [hlt] using fun _ _ hc => hlt.trans (hlm _ hc))

/-- A memory in canonical form is its bytes. -/
theorem eq_of_byteAt : ∀ {m n : Memory}, m.wf → n.wf → (∀ a, m.byteAt a = n.byteAt a) → m = n
  | [], [], _, _, _ => rfl
  | [], (l, w) :: n, _, hn, h => absurd (by simpa [byteAt_cons_self] using (h l).symm) (wf_of_cons hn).2.2
  | (k, v) :: m, [], hm, _, h => absurd (by simpa [byteAt_cons_self] using h k) (wf_of_cons hm).2.2
  | (k, v) :: m, (l, w) :: n, hm, hn, h => by
    obtain ⟨rfl, rfl⟩ := head_eq_of_byteAt hm hn h
    obtain ⟨hm', hlm, -⟩ := wf_of_cons hm
    obtain ⟨hn', hln, -⟩ := wf_of_cons hn
    rw [eq_of_byteAt hm' hn' fun a => ?_]
    by_cases e : k = a
    · subst e
      rw [byteAt_below hlm, byteAt_below hln]
    · simpa [Memory.byteAt, e] using h a

/-- Settles O21: a block write keeps the canonical form, in which a memory is its bytes. -/
theorem memoryIsItsBytes : Obligations.MemoryIsItsBytes :=
  ⟨fun m base a bytes hm hb => ⟨putBlock_wf hm hb, byteAt_putBlock m base a bytes⟩, fun _ _ => eq_of_byteAt⟩

/-! ## The bus -/

/-- Settles O22: in the window the address selects a register of the video unit, whose read is recorded. -/
theorem busReadDispatches : Obligations.BusReadDispatches := by
  refine fun a s => ⟨fun hf => busRead_of_fetchable hf s, fun hf => ?_⟩
  obtain ⟨r, hr, hreg⟩ := videoRegAt_eq_some hf
  exact ⟨r, hreg, (videoRead r s).1, (videoRead r s).2.video.blank, by rw [busRead, hr]; rfl⟩

/-- Settles O23: in the window the address selects a register of the video unit, whose write is recorded. -/
theorem busWriteReachesVideoOrRam : Obligations.BusWriteReachesVideoOrRam := by
  refine fun a v s => ⟨fun hf => ?_, fun hf hl hd => busWrite_ram hf hl hd v s⟩
  obtain ⟨r, hr, hreg⟩ := videoRegAt_eq_some hf
  exact ⟨r, hreg, (videoWrite r v s).video.blank, by rw [busWrite, hr]; rfl⟩

/-- Without an MMC1 the mapper ignores a write (R100, R109). -/
theorem mapperWrite_of_ne_mmc1 {s : State} (h : s.mapper ≠ .mmc1) (a : Word) (v : Byte) : mapperWrite a v s = .next s := by
  unfold mapperWrite
  split
  · rfl
  · rfl
  · exact absurd ‹_› h

/-- A write to 0x4014 is sprite DMA (R83). -/
theorem busWrite_dma (v : Byte) (s : State) : busWrite 0x4014 v s = .next (spriteDma v s) := by
  rw [busWrite, videoRegAt_eq_none.mpr (by unfold Fetchable; decide)]
  rfl

/-- Settles O24: sprite DMA reads a block of 256 bytes, and a write to the ROM window is the mapper's. -/
theorem dmaAndRomWritesStoreNothing : Obligations.DmaAndRomWritesStoreNothing := by
  refine ⟨fun v s => ⟨_, busWrite_dma v s, block_length _ _ _, fun k hk => block_getElem? _ hk⟩, fun a v s ha => ?_⟩
  rw [busWrite_rom ha]
  exact ⟨rfl, fun hm => mapperWrite_of_ne_mmc1 hm a v⟩

/-- Settles O25: the high byte's address wraps within the page. -/
theorem read16WrapsWithinThePage : Obligations.Read16WrapsWithinThePage := by
  intro a s high low
  have hhigh : nextInPage a = high := by
    refine BitVec.eq_of_toNat_eq ?_
    rw [nextInPage_toNat]
    simp only [high]
    split
    · rw [BitVec.toNat_ofNat]
      omega
    · rw [BitVec.toNat_ofNat]
      omega
  exact hhigh ▸ ⟨rfl, rfl⟩

/-! ## Addressing modes -/

/-- A pointer in the zero page is two bytes of the flat array, its address wrapping within the page. -/
theorem read16_zeroPage (z : Byte) (s : State) :
    (read16 (zeroPage z) s).1 = BitVec.ofNat 16
      ((s.mem.byteAt z.toNat).toNat + (s.mem.byteAt ((z.toNat + 1) % 256)).toNat * 256) := by
  have hnext : (nextInPage (zeroPage z)).toNat = (z.toNat + 1) % 256 := by
    rw [nextInPage_toNat, zeroPage_toNat]
    split <;> omega
  rw [read16_of_fetchable (zeroPage_fetchable z) (nextInPage_zeroPage z), hnext, zeroPage_toNat]
  refine BitVec.eq_of_toNat_eq ?_
  rw [mkWord_toNat, BitVec.toNat_ofNat]
  omega

/-- An indexed address is a sum that wraps at 0xFFFF. -/
theorem add_index (a : Word) (i : Byte) : a + i.setWidth 16 = BitVec.ofNat 16 ((a.toNat + i.toNat) % 65536) := by
  refine BitVec.eq_of_toNat_eq ?_
  simp only [BitVec.toNat_add, BitVec.toNat_setWidth, BitVec.toNat_ofNat]
  omega

/-- A zero-page address is its byte. -/
theorem zeroPage_eq (z : Byte) : zeroPage z = BitVec.ofNat 16 z.toNat := by
  refine BitVec.eq_of_toNat_eq ?_
  rw [zeroPage_toNat, BitVec.toNat_ofNat]
  omega

/-- A zero-page index wraps within the page. -/
theorem zeroPage_add (z i : Byte) : zeroPage (z + i) = BitVec.ofNat 16 ((z.toNat + i.toNat) % 256) := by
  rw [zeroPage_eq, BitVec.toNat_add]

/-- Settles O26: each mode's sum, and its pointer where it has one. -/
theorem addressingModesReachTheirAddress : Obligations.AddressingModesReachTheirAddress := by
  intro s z a pointer
  refine ⟨zeroPage_eq z, zeroPage_add z s.x, zeroPage_add z s.y, rfl, add_index a s.x, add_index a s.y, ?_, ?_, rfl,
    fun m => readSource_mem m s⟩
  · show (read16 (zeroPage (z + s.x)) s).1 = _
    rw [read16_zeroPage, BitVec.toNat_add]
    simp only [pointer]
    congr 5
    omega
  · show (read16 (zeroPage z) s).1 + (read16 (zeroPage z) s).2.y.setWidth 16 = _
    have hy : (read16 (zeroPage z) s).2.y = s.y := by rw [read16_state]; rfl
    rw [read16_zeroPage, hy, add_index, BitVec.toNat_ofNat]
    simp only [pointer, Nat.mod_eq_of_lt z.isLt]
    congr 1
    omega

end Sys2Proof.Machine
end

section
/-! The MMC1 (20_memory R100-R107): its serial writes, its four registers, and what their commits map. -/

namespace Sys2Proof.Machine

/-! ## Serial writes -/

/-- A serial write moves every bit of the accumulator down and enters its own at the top (R102). -/
theorem getLsbD_shiftIn (acc : BitVec 5) (v : Byte) {i : Nat} (hi : i < 5) :
    (shiftIn acc v).getLsbD i = if i = 4 then v.getLsbD 0 else acc.getLsbD (i + 1) := by
  unfold shiftIn
  cases v.getLsbD 0 <;> interval_cases i <;> simp

/-- Five serial writes leave nothing of the accumulator they started from (R102). -/
theorem shiftIn_five {acc value : BitVec 5} {v1 v2 v3 v4 v5 : Byte}
    (h : ∀ k, k < 5 → [v1, v2, v3, v4, v5][k]?.map (fun v => v.getLsbD 0) = some (value.getLsbD k)) :
    shiftIn (shiftIn (shiftIn (shiftIn (shiftIn acc v1) v2) v3) v4) v5 = value := by
  refine BitVec.eq_of_getLsbD_eq fun i hi => ?_
  have := h i hi
  interval_cases i <;> simpa [getLsbD_shiftIn, -BitVec.getLsbD_eq_getElem] using this

/-- A state with one MMC1 register replaced. -/
def withReg (r : MapperReg) (g : Mmc1Reg) (s : State) : State := s.setMmc1 (s.mmc1.setReg r g)

@[simp] theorem withReg_reg (r : MapperReg) (g : Mmc1Reg) (s : State) : (withReg r g s).mmc1.reg r = g :=
  reg_setReg_self s.mmc1 r g

@[simp] theorem withReg_withReg (r : MapperReg) (g g' : Mmc1Reg) (s : State) :
    withReg r g' (withReg r g s) = withReg r g' s := by
  simp [withReg, State.setMmc1]

theorem withReg_self (r : MapperReg) (s : State) : withReg r (s.mmc1.reg r) s = s := by
  cases r <;> rfl

/-- An outcome that goes on, goes on. -/
theorem andThen_next {α β : Type} (v : α) (k : α → Outcome β) : andThen (.next v) k = k v := rfl

/-- A register after a serial write that is not its fifth. -/
def Mmc1Reg.shifted (g : Mmc1Reg) (v : Byte) : Mmc1Reg := { g with shift := shiftIn g.shift v, count := g.count + 1 }

@[simp] theorem Mmc1Reg.shifted_count (g : Mmc1Reg) (v : Byte) : (g.shifted v).count = g.count + 1 := rfl
@[simp] theorem Mmc1Reg.shifted_value (g : Mmc1Reg) (v : Byte) : (g.shifted v).value = g.value := rfl

/-- A write with bit 7 clear, on an MMC1, is a serial write of the register its address selects. -/
theorem busWrite_serial {a : Word} {v : Byte} {s : State} (hm : s.mapper = .mmc1) (ha : 0x8000 ≤ a.toNat)
    (hv : v.msb = false) : busWrite a v s = mmc1ShiftIn (mapperRegAt a) v s := by
  rw [busWrite_rom ha, mapperWrite, hm]
  simp [mmc1Write, hv]

/-- The first four serial writes move the accumulator and the counter only (R102). -/
theorem mmc1ShiftIn_of_lt {r : MapperReg} {s : State} (h : (s.mmc1.reg r).count < 4) (v : Byte) :
    mmc1ShiftIn r v s = .next (withReg r ((s.mmc1.reg r).shifted v) s) := by
  simp only [mmc1ShiftIn]
  rw [if_neg (by omega)]
  rfl

/-- The fifth serial write commits (R102). -/
theorem mmc1ShiftIn_of_eq {r : MapperReg} {s : State} (h : (s.mmc1.reg r).count = 4) (v : Byte) :
    mmc1ShiftIn r v s = commitEffect r (committed r v s) := by
  simp only [mmc1ShiftIn]
  rw [if_pos (by omega)]
  rfl

/-- A serial write before the fifth, on the bus. -/
theorem busWrite_withReg {r : MapperReg} {g : Mmc1Reg} {a : Word} {v : Byte} {s : State} (hm : s.mapper = .mmc1)
    (ha : 0x8000 ≤ a.toNat ∧ mapperRegAt a = r) (hv : v.msb = false) (hc : g.count < 4) :
    busWrite a v (withReg r g s) = .next (withReg r (g.shifted v) s) := by
  obtain ⟨ha, rfl⟩ := ha
  rw [busWrite_serial (by exact hm) ha hv, mmc1ShiftIn_of_lt (by simpa using hc), withReg_reg, withReg_withReg]

/-- The fifth serial write, on the bus. -/
theorem busWrite_withReg_fifth {r : MapperReg} {g : Mmc1Reg} {a : Word} {v : Byte} {s : State} (hm : s.mapper = .mmc1)
    (ha : 0x8000 ≤ a.toNat ∧ mapperRegAt a = r) (hv : v.msb = false) (hc : g.count = 4) :
    busWrite a v (withReg r g s) =
      commitEffect r (withReg r { shift := 0, count := 0, value := shiftIn g.shift v, committed := true } s) := by
  obtain ⟨ha, rfl⟩ := ha
  rw [busWrite_serial (by exact hm) ha hv, mmc1ShiftIn_of_eq (by simpa using hc), committed, withReg_reg]
  exact congrArg _ (withReg_withReg ..)

/-- Settles O27: four serial writes fill the accumulator, the fifth commits it; a control commit has no side effect. -/
theorem fiveSerialWritesCommit : Obligations.FiveSerialWritesCommit := by
  intro s r a1 a2 a3 a4 a5 v1 v2 v3 v4 v5 value hm hc haddr hmsb hvalue
  simp only [List.mem_cons, List.not_mem_nil, or_false, forall_eq_or_imp, forall_eq] at haddr hmsb
  obtain ⟨h1, h2, h3, h4, h5⟩ := haddr
  obtain ⟨hv1, hv2, hv3, hv4, hv5⟩ := hmsb
  let g0 := s.mmc1.reg r
  let g4 := (((g0.shifted v1).shifted v2).shifted v3).shifted v4
  have hfour : (andThen (busWrite a1 v1 s) fun t => andThen (busWrite a2 v2 t) fun t => andThen (busWrite a3 v3 t) fun t =>
      busWrite a4 v4 t) = .next (withReg r g4 s) := by
    rw [← withReg_self r s, busWrite_withReg hm h1 hv1 (by omega), andThen_next,
      busWrite_withReg hm h2 hv2 (by simp [hc]), andThen_next, busWrite_withReg hm h3 hv3 (by simp [hc]), andThen_next,
      busWrite_withReg hm h4 hv4 (by simp [hc]), withReg_self]
  have hcount : g4.count = 4 := by simp [g4, g0, hc]
  have hfifth : busWrite a5 v5 (withReg r g4 s) =
      commitEffect r (withReg r { shift := 0, count := 0, value := value, committed := true } s) := by
    rw [busWrite_withReg_fifth hm h5 hv5 hcount, show shiftIn g4.shift v5 = value from shiftIn_five hvalue]
  refine ⟨withReg r g4 s, hfour, by simp [g4, g0], by rw [withReg_reg, hcount], hfifth, ?_⟩
  rintro rfl
  exact hfifth

/-! ## The registers -/

/-- R101's selection, by the top three bits of the address. -/
theorem and_E000_toNat (a : Word) : (a &&& 0xE000).toNat = a.toNat / 8192 * 8192 := by
  have h : a &&& (0xE000 : Word) = (a >>> 13) <<< 13 := by
    apply BitVec.eq_of_getLsbD_eq
    intro i hi
    interval_cases i <;> simp
  rw [h, BitVec.toNat_shiftLeft, BitVec.toNat_ushiftRight, Nat.shiftRight_eq_div_pow, Nat.shiftLeft_eq]
  omega

/-- The side effect of a commit leaves the MMC1 state alone. -/
theorem commitEffect_mmc1 {r : MapperReg} {s t : State} (h : commitEffect r s = .next t) : t.mmc1 = s.mmc1 := by
  obtain ⟨w, rfl⟩ | ⟨-, low, high, -, -, rfl⟩ := commitEffect_next h
  · rfl
  · rfl

/-- A mapper write leaves the registers alone that its address does not select (R101). -/
theorem mapperWrite_reg_of_ne {a : Word} {v : Byte} {s t : State} {r : MapperReg} (h : mapperWrite a v s = .next t)
    (hr : r ≠ mapperRegAt a) : t.mmc1.reg r = s.mmc1.reg r := by
  by_cases hm : s.mapper = .mmc1
  · have keep : ∀ g, (s.mmc1.setReg (mapperRegAt a) g).reg r = s.mmc1.reg r := fun g => by rw [reg_setReg, if_neg hr]
    simp only [mapperWrite, hm, mmc1Write, mmc1ShiftIn] at h
    split at h
    · cases h
      exact keep _
    · split at h
      · rw [commitEffect_mmc1 h]
        exact keep _
      · cases h
        exact keep _
  · rw [mapperWrite_of_ne_mmc1 hm] at h
    cases h
    rfl

/-- Settles O28: the selection by address, the registers apart, and the reset by bit 7. -/
theorem mapperRegistersAreIndependent : Obligations.MapperRegistersAreIndependent := by
  refine ⟨fun a ha => ?_, fun s t a v r => mapperWrite_reg_of_ne, fun s a v hm ha hv => ?_⟩
  · have hmask := and_E000_toNat a
    unfold mapperRegAt
    refine ⟨fun e => ?_, fun e => ?_, fun e => ?_, fun e => ?_⟩ <;> rw [e] at hmask
    · replace hmask : 0x8000 = a.toNat / 8192 * 8192 := hmask
      rw [if_pos (by omega)]
    · replace hmask : 0xA000 = a.toNat / 8192 * 8192 := hmask
      rw [if_neg (by omega), if_pos (by omega)]
    · replace hmask : 0xC000 = a.toNat / 8192 * 8192 := hmask
      rw [if_neg (by omega), if_neg (by omega), if_pos (by omega)]
    · replace hmask : 0xE000 = a.toNat / 8192 * 8192 := hmask
      rw [if_neg (by omega), if_neg (by omega), if_neg (by omega)]
  · refine ⟨{ s.mmc1.reg (mapperRegAt a) with shift := 0, count := 0, committed := false }, ?_, rfl, rfl, rfl, rfl⟩
    rw [busWrite_rom ha, mapperWrite, hm]
    simp [mmc1Write, hv, mmc1Reset, State.setMmc1, hm]

/-! ## Commits -/

theorem and_0F_toNat (v : BitVec 5) : (v &&& 0x0F).toNat = v.toNat % 16 := by revert v; decide
theorem and_0E_toNat (v : BitVec 5) : (v &&& 0x0E).toNat = v.toNat % 16 / 2 * 2 := by revert v; decide

/-- The mode is bits 3:2 of control (R104). -/
theorem prgMode_toNat (m : Mmc1) : (prgMode m).toNat = m.control.value.toNat / 4 % 4 := by
  simp [prgMode, BitVec.extractLsb'_toNat, Nat.shiftRight_eq_div_pow]

/-- R105's table: the banks of each mode. -/
theorem prgBanksFor_eq {mode : BitVec 2} {v : BitVec 5} {n low high : Nat}
    (h01 : mode.toNat ≤ 1 → low = v.toNat % 16 / 2 * 2 ∧ high = v.toNat % 16 / 2 * 2 + 1)
    (h2 : mode.toNat = 2 → low = 0 ∧ high = v.toNat % 16)
    (h3 : mode.toNat = 3 → low = v.toNat % 16 ∧ high = n - 1) : prgBanksFor mode v n = (low, high) := by
  unfold prgBanksFor
  split
  · obtain ⟨rfl, rfl⟩ := h2 rfl
    rw [and_0F_toNat]
  · obtain ⟨rfl, rfl⟩ := h3 rfl
    rw [and_0F_toNat]
  · rename_i ne2 ne3
    have : mode.toNat ≠ 2 := fun e => ne2 (BitVec.eq_of_toNat_eq e)
    have : mode.toNat ≠ 3 := fun e => ne3 (BitVec.eq_of_toNat_eq e)
    obtain ⟨rfl, rfl⟩ := h01 (by omega)
    rw [and_0E_toNat]

/-- Settles O29: the banks of the mode, checked before the first copy, then copied. -/
theorem prgCommitMapsItsBanks : Obligations.PrgCommitMapsItsBanks := by
  intro s low high hcart mode v h01 h2 h3
  have hbanks : prgBanksFor (prgMode s.mmc1) s.mmc1.prgBank.value s.cart.prgBanks = (low, high) := by
    have hmode : (prgMode s.mmc1).toNat = mode := prgMode_toNat s.mmc1
    exact prgBanksFor_eq (hmode ▸ h01) (hmode ▸ h2) (hmode ▸ h3)
  simp only [commitEffect, prgCommit, hbanks]
  refine ⟨fun hl hh => ?_, fun hl => by rw [if_pos hl], fun hl hh => by rw [if_neg (by omega), if_pos hh]⟩
  obtain ⟨hlow, hhigh⟩ := showsBank_copies hcart hl hh
  refine ⟨(copyPrg high 0xC000 (copyPrg low 0x8000 s)).mem, by rw [if_neg (by omega), if_neg (by omega)]; rfl, hlow, hhigh,
    fun a ha => ?_⟩
  rw [byteAt_copyPrg_below high _ (by omega), byteAt_copyPrg_below low _ ha]

/-- Units in the image are sent (R106). -/
theorem copyChr_of_le {r : MapperReg} {u k off : Nat} {s : State} (h : u + k ≤ s.cart.chrBanks * 2) :
    copyChr r u k off s = .next (videoCall (.setPatternMemory off (chrUnitBytes s.cart u k)) s) := by
  rw [copyChr, if_neg (by omega)]

/-- Units outside the image are the fault (R106). -/
theorem copyChr_of_lt {r : MapperReg} {u k off : Nat} {s : State} (h : s.cart.chrBanks * 2 < u + k) :
    copyChr r u k off s = .fault (.mapperBankOutOfRange r u s) := by
  rw [copyChr, if_pos h]

/-- Settles O30: without CHR no effect; else the units of the mode, checked and sent. -/
theorem chrCommitMapsItsUnits : Obligations.ChrCommitMapsItsUnits := by
  intro s units send u0 u1
  refine ⟨fun h0 => ?_, fun h0 hmode => ?_, fun h0 hmode => ?_⟩
  · simp only [commitEffect, chr0Commit, chr1Commit, if_pos h0, and_self]
  · replace hmode : ¬chrMode s.mmc1 = true := by simpa [chrMode] using hmode
    simp only [commitEffect, chr0Commit, chr1Commit, if_neg h0, if_neg hmode, evenUnit_toNat]
    exact ⟨trivial, copyChr_of_le, copyChr_of_lt⟩
  · replace hmode : chrMode s.mmc1 = true := hmode
    simp only [commitEffect, chr0Commit, chr1Commit, if_neg h0, if_pos hmode]
    exact ⟨copyChr_of_le, copyChr_of_lt, copyChr_of_le, copyChr_of_lt⟩

/-- A bus write completes exactly when it commits no bank outside the image (R105-R107): one that is no commit always does. -/
theorem busWrite_completes_iff {a : Word} {v : Byte} {s : State} :
    (∃ t, busWrite a v s = .next t) ↔ WriteCompletes a v s := by
  obtain ⟨hc, e⟩ | ⟨hc, h⟩ := busWrite_cases a v s
  · rw [e, commitEffect_completes]
    exact ⟨fun h _ => h, fun h => h hc⟩
  · exact ⟨fun _ hcommit => absurd hcommit hc, fun _ => h⟩

/-- Settles O31. -/
theorem busWriteCompletesUnlessABankIsMissing : Obligations.BusWriteCompletesUnlessABankIsMissing :=
  fun _ _ _ => busWrite_completes_iff

end Sys2Proof.Machine
end

section
/-! Rules for one instruction (40_addressing R170, R175): from the flags an operation writes, and the bus write it makes, to what
its instruction runs to. -/

namespace Sys2Proof.Machine

/-! ## Which flags a computation writes -/

/-- A new SR that has exactly these flags written over the old one, whatever bit 5 is. -/
def FlagsWritten (old new : Byte) (writes : List (Flag × Bool)) : Prop :=
  (∀ p ∈ writes, srFlag new p.1 = p.2) ∧ ∀ f, f ∉ writes.map Prod.fst → srFlag new f = srFlag old f

theorem FlagsWritten.refl (sr : Byte) : FlagsWritten sr sr [] := ⟨by simp, fun _ _ => rfl⟩

/-- Flags written one after another, the later ones first. -/
theorem FlagsWritten.trans {old mid new : Byte} {first second : List (Flag × Bool)} (h : FlagsWritten old mid first)
    (h' : FlagsWritten mid new second) (hdisjoint : ∀ p ∈ first, p.1 ∉ second.map Prod.fst) :
    FlagsWritten old new (second ++ first) := by
  refine ⟨fun p hp => ?_, fun f hf => ?_⟩
  · obtain hp | hp := List.mem_append.mp hp
    · exact h'.1 p hp
    · exact (h'.2 p.1 (hdisjoint p hp)).trans (h.1 p hp)
  · obtain ⟨hsecond, hfirst⟩ : f ∉ second.map Prod.fst ∧ f ∉ first.map Prod.fst := by
      rwa [List.map_append, List.mem_append, not_or] at hf
    exact (h'.2 f hsecond).trans (h.2 f hfirst)

theorem flagsWritten_setFlag (s : State) (f : Flag) (v : Bool) : FlagsWritten s.sr (s.setFlag f v).sr [(f, v)] := by
  refine ⟨by simp [State.setFlag], fun g hg => ?_⟩
  simp only [List.map_cons, List.map_nil, List.mem_singleton] at hg
  simp [State.setFlag, hg]

theorem flagsWritten_setNZ (s : State) (v : Byte) : FlagsWritten s.sr (setNZ v s).sr (nzOf v) := by
  refine ⟨by simp [setNZ, State.setFlag, nzOf], fun g hg => ?_⟩
  simp only [nzOf, List.map_cons, List.map_nil, List.mem_cons, List.not_mem_nil, or_false, not_or] at hg
  simp [setNZ, State.setFlag, hg]

theorem flagsWritten_compareBytes (s : State) (r m : Byte) : FlagsWritten s.sr (compareBytes r m s).sr
    [(.z, r == m), (.c, decide (r.toNat ≥ m.toNat)), (.n, (r - m).msb)] := by
  refine ⟨by simp [compareBytes, State.setFlag], fun g hg => ?_⟩
  simp only [List.map_cons, List.map_nil, List.mem_cons, List.not_mem_nil, or_false, not_or] at hg
  simp [compareBytes, State.setFlag, hg]

theorem flagsWritten_bitTest (s : State) (a m : Byte) : FlagsWritten s.sr (bitTest a m s).sr
    [(.z, a &&& m == 0), (.n, m.getLsbD 7), (.v, m.getLsbD 6)] := by
  refine ⟨by simp [bitTest, State.setFlag, BitVec.msb_eq_getLsbD_last], fun g hg => ?_⟩
  simp only [List.map_cons, List.map_nil, List.mem_cons, List.not_mem_nil, or_false, not_or] at hg
  simp [bitTest, State.setFlag, hg]

theorem flagsWritten_addBytes (s : State) (a m : Byte) : FlagsWritten s.sr (addBytes a m s).2.sr
    [(.c, decide (a.toNat + m.toNat + (s.flag .c).toNat > 255)),
      (.v, a.msb == m.msb && (addBytes a m s).1.msb != a.msb)] := by
  refine ⟨by simp [srFlag_addBytes], fun g hg => ?_⟩
  simp only [List.map_cons, List.map_nil, List.mem_cons, List.not_mem_nil, or_false, not_or] at hg
  simp [srFlag_addBytes, hg, State.flag]

theorem flagsWritten_subBytes (s : State) (a m : Byte) : FlagsWritten s.sr (subBytes a m s).2.sr
    [(.c, decide ((a.toNat : Int) - m.toNat - (1 - (s.flag .c).toNat) ≥ 0)),
      (.v, a.msb != m.msb && (subBytes a m s).1.msb != a.msb)] := by
  refine ⟨by simp [subBytes, State.setFlag, carry], fun g hg => ?_⟩
  simp only [List.map_cons, List.map_nil, List.mem_cons, List.not_mem_nil, or_false, not_or] at hg
  simp [subBytes, State.setFlag, hg]

theorem flagsWritten_shiftLeft (s : State) (rotate : Bool) (m : Byte) :
    FlagsWritten s.sr (shiftLeft rotate m s).2.sr [(.c, m.getLsbD 7)] := by
  rw [← show m.msb = m.getLsbD 7 from BitVec.msb_eq_getLsbD_last m]
  exact flagsWritten_setFlag s .c m.msb

theorem flagsWritten_shiftRight (s : State) (rotate : Bool) (m : Byte) :
    FlagsWritten s.sr (shiftRight rotate m s).2.sr [(.c, m.getLsbD 0)] :=
  flagsWritten_setFlag s .c (m.getLsbD 0)

/-- What PLP and RTI load has every flag of the pulled byte, B cleared (R293, R323). -/
theorem flagsWritten_statusFromStack (sr v : Byte) : FlagsWritten sr (statusFromStack v)
    [(.n, v.getLsbD 7), (.v, v.getLsbD 6), (.b, false), (.d, v.getLsbD 3), (.i, v.getLsbD 2), (.z, v.getLsbD 1),
      (.c, v.getLsbD 0)] := by
  refine ⟨by simp [statusFromStack, srFlag, Flag.bit], fun f hf => ?_⟩
  cases f <;> simp at hf

/-! ## Computations on SR -/

/-- A computation that looks at SR only, and writes SR only: with the same SR it answers the same and leaves the same SR. -/
def OnSr (f : State → Byte × State) : Prop := ∀ {s t : State}, t.sr = s.sr → f t = ((f s).1, t.setSr (f s).2.sr)

theorem onSr_const (v : Byte) : OnSr fun t => (v, t) := fun {s t} h => by
  show (v, t) = (v, t.setSr s.sr)
  rw [← h]
  rfl

theorem onSr_addBytes (a m : Byte) : OnSr (addBytes a m) := addBytes_congr a m

theorem onSr_subBytes (a m : Byte) : OnSr (subBytes a m) := fun {s t} h => by
  have hcarry : carry t = carry s := by simp only [carry, State.flag, h]
  simp only [subBytes, State.setFlag, State.setSr_sr, State.setSr_setSr]
  rw [hcarry, h]

theorem onSr_shiftLeft (rotate : Bool) (m : Byte) : OnSr (shiftLeft rotate m) := fun {s t} h => by
  simp only [shiftLeft, State.flag, State.setFlag, h]
  rfl

theorem onSr_shiftRight (rotate : Bool) (m : Byte) : OnSr (shiftRight rotate m) := fun {s t} h => by
  simp only [shiftRight, State.flag, State.setFlag, h]
  rfl

/-! ## Instructions that make no bus write -/

/-- The flags of an instruction without the generic pass are those its operation wrote. -/
theorem statusAfter_of_no_pass {old : Byte} {u : State} {writes : List (Flag × Bool)} (h : FlagsWritten old u.sr writes) :
    StatusAfter old (finishInstr false u).sr writes :=
  ⟨finishInstr_bit5 false u, fun p hp => (srFlag_or_unused u.sr p.1).trans (h.1 p hp),
    fun f hf => (srFlag_or_unused u.sr f).trans (h.2 f hf)⟩

/-- N and Z are not among these flags: the generic pass writes them after. -/
def NoNZ (writes : List (Flag × Bool)) : Prop := ∀ p ∈ writes, p.1 ≠ .n ∧ p.1 ≠ .z

section Runs

variable {i : Instr} {m : Mnemonic} {o : Operand} {s t : State} {sr : Byte} {pc : Word} {writes : List (Flag × Bool)}

/-- An instruction without the generic pass runs to what its operation answers. -/
theorem runsTo_of_no_pass (hi : i.form = ⟨m, o⟩)
    (hp : performOf ⟨m, o⟩ s.pc (s.setPc (nextPc i s)) = .next ((t.setSr sr).setPc pc)) (hw : FlagsWritten t.sr sr writes)
    (hpass : Form.flagPass ⟨m, o⟩ = false := by rfl) (hr : refusalOf m s = none := by exact refusalOf_none nofun nofun) :
    RunsTo i s t pc writes := by
  rw [← hi] at hp hpass
  refine runsTo_of_performOf (by rwa [Instr.mnemonic, hi]) hp rfl ?_
  rw [hpass]
  exact statusAfter_of_no_pass hw

/-- An instruction with the generic pass runs to what its operation answers, N and Z from A. -/
theorem runsTo_of_pass (hi : i.form = ⟨m, o⟩)
    (hp : performOf ⟨m, o⟩ s.pc (s.setPc (nextPc i s)) = .next ((t.setSr sr).setPc pc)) (hw : FlagsWritten t.sr sr writes)
    (hnz : NoNZ writes := by simp [NoNZ]) (hpass : Form.flagPass ⟨m, o⟩ = true := by rfl)
    (hr : refusalOf m s = none := by exact refusalOf_none nofun nofun) : RunsTo i s t pc (nzOf t.a ++ writes) := by
  rw [← hi] at hp hpass
  refine runsTo_of_performOf (by rwa [Instr.mnemonic, hi]) hp rfl ?_
  rw [hpass]
  exact statusAfter_flagPass (u := (t.setSr sr).setPc pc) hnz hw.1 hw.2

end Runs

/-! ## Instructions that make a bus write -/

/-- A bus write that does not complete faults. -/
theorem busWrite_fault_of_not_completes {a : Word} {v : Byte} {s : State} (h : ¬WriteCompletes a v s) :
    ∃ f, busWrite a v s = .fault f := by
  cases e : busWrite a v s with
  | next t => exact absurd (busWrite_completes_iff.mp ⟨t, e⟩) h
  | fault f => exact ⟨f, rfl⟩
  | refused r => exact absurd e (busWrite_not_refused a v s r)

section Writes

variable {i : Instr} {m : Mnemonic} {o : Operand} {s s' : State} {e : Word} {v sr : Byte} {k : State → Result}
  {after : State → State} {writes : List (Flag × Bool)}

/-- An instruction whose operation is one bus write and what follows it. -/
theorem writesAndRuns_of_performOf (hi : i.form = ⟨m, o⟩)
    (hp : performOf ⟨m, o⟩ s.pc (s.setPc (nextPc i s)) = andThen (busWrite e v ((s'.setPc (nextPc i s)).setSr sr)) k)
    (hk : ∀ u, busWrite e v s' = .next u → ∃ w, k ((u.setPc (nextPc i s)).setSr sr) = .next w ∧
      w = ((after u).setSr w.sr).setPc (nextPc i s) ∧
      StatusAfter (after u).sr (finishInstr (Form.flagPass ⟨m, o⟩) w).sr writes)
    (hr : refusalOf m s = none := by exact refusalOf_none nofun nofun) :
    WritesAndRuns i s s' e v after writes := by
  have hr' : refusalOf i.mnemonic s = none := by rwa [Instr.mnemonic, hi]
  rw [← hi] at hp hk
  refine ⟨fun hcompletes => ?_, fun hfaults => ?_⟩
  · obtain ⟨u, hu⟩ := busWrite_completes_iff.mpr hcompletes
    obtain ⟨w, hw, hafter, hstatus⟩ := hk u hu
    have update : RegUpdate fun t => (t.setPc (nextPc i s)).setSr sr := (regUpdate_setSr sr).comp (regUpdate_setPc _)
    refine ⟨u, hu, runsTo_of_performOf hr' ?_ hafter hstatus⟩
    rw [hp, busWrite_regUpdate update, hu, ← hw]
    rfl
  · obtain ⟨f, hf⟩ := busWrite_fault_of_not_completes hfaults
    obtain ⟨r, bank, w, left, rfl, hexec, hleft⟩ := exec_fault_of_busWrite hr' hp hf
    exact ⟨r, bank, w, left, hf, hexec, hleft⟩

end Writes

end Sys2Proof.Machine
end

section
/-! The instructions that make no bus write through a memory mode (41_alu to 44_stack_flags_nop, 46_undocumented): arithmetic,
loads, transfers, register shifts and steps, the stack, the flags, the no-operations. -/

namespace Sys2Proof.Machine

/-! ## Arithmetic -/

/-- Settles O32: the operand is read, A takes the result, the generic pass writes N and Z. -/
theorem logicInstructionsCombineIntoA : Obligations.LogicInstructionsCombineIntoA := by
  intro i o s m
  refine ⟨fun hi => runsTo_of_pass (writes := []) hi ?_ (.refl _), fun hi => runsTo_of_pass (writes := []) hi ?_ (.refl _),
    fun hi => runsTo_of_pass (writes := []) hi ?_ (.refl _)⟩
  · show performOra o _ = _
    simp only [performOra, readSource_setPc, State.setPc_a, readSource_a]
    rfl
  · show performAnd o _ = _
    simp only [performAnd, readSource_setPc, State.setPc_a, readSource_a]
    rfl
  · show performEor o _ = _
    simp only [performEor, readSource_setPc, State.setPc_a, readSource_a]
    rfl

/-- SUBTRACT's result is the difference, cut to 8 bits (R202). -/
theorem subBytes_fst (a m : Byte) (s : State) :
    (subBytes a m s).1 = BitVec.ofNat 8 (((a.toNat : Int) - m.toNat - (1 - (s.flag .c).toNat)) % 256).toNat := by
  refine BitVec.eq_of_toNat_eq ?_
  simp only [subBytes, carry, BitVec.toNat_ofInt, BitVec.toNat_ofNat]
  omega

/-- SBC is SUBTRACT of the operand from A; the read leaves A and SR, which SUBTRACT sees. -/
theorem performSbc_setPc (o : Source) (s : State) (pc : Word) :
    performSbc o (s.setPc pc) =
      .next ((((readSource o s).2.setPc pc).setSr (subBytes s.a (readSource o s).1 s).2.sr).setA
        (subBytes s.a (readSource o s).1 s).1) := by
  have hsr : ((readSource o s).2.setPc pc).sr = s.sr := readSource_sr o s
  simp only [performSbc, readSource_setPc, State.setPc_a, readSource_a, onSr_subBytes _ _ hsr]

/-- USBC has one form, the immediate one. -/
theorem operand_of_usbc {i : Instr} {o : Source} (h : i.form = ⟨.usbc, .src o⟩) : ∃ v, o = .imm v := by
  cases i <;> simp [Instr.form] at h
  exact ⟨_, h.symm⟩

/-- Settles O34: SBC is SUBTRACT, which writes C and V; USBC is SBC of its immediate operand. -/
theorem sbcSubtractsWithBorrow : Obligations.SbcSubtractsWithBorrow := by
  intro i o s hi m diff r
  have hr : (subBytes s.a m.1 s).1 = r := subBytes_fst ..
  have hw : FlagsWritten m.2.sr (subBytes s.a m.1 s).2.sr
      [(.c, decide (diff ≥ 0)), (.v, s.a.msb != m.1.msb && r.msb != s.a.msb)] := by
    rw [show m.2.sr = s.sr from readSource_sr o s, ← hr]
    exact flagsWritten_subBytes s s.a m.1
  have hp : performSbc o (s.setPc (nextPc i s)) =
      .next ((({ m.2 with a := r } : State).setSr (subBytes s.a m.1 s).2.sr).setPc (nextPc i s)) := by
    rw [performSbc_setPc, hr]
    rfl
  obtain hi | hi := hi
  · exact runsTo_of_pass hi hp hw
  · obtain ⟨v, rfl⟩ := operand_of_usbc hi
    exact runsTo_of_pass hi hp hw

theorem complement_toNat (m : Byte) : (m ^^^ 0xFF).toNat = 255 - m.toNat := by
  have : m ^^^ (0xFF : Byte) = ~~~m := BitVec.xor_allOnes
  rw [this, BitVec.toNat_not]

/-- Settles O35: modulo 256 the difference undoes the sum, and is the sum with the complement. -/
theorem subtractUndoesAdd : Obligations.SubtractUndoesAdd := by
  refine ⟨fun a b s t hc => ?_, fun a m s => ?_⟩
  · refine BitVec.eq_of_toNat_eq ?_
    rw [subBytes_fst, addBytes_fst, hc]
    cases s.flag .c <;> simp <;> omega
  · have hm := complement_toNat m
    have hfst : (subBytes a m s).1 = (addBytes a (m ^^^ 0xFF) s).1 := by
      refine BitVec.eq_of_toNat_eq ?_
      rw [subBytes_fst, addBytes_fst, hm]
      cases s.flag .c <;> simp <;> omega
    have hc : decide (0 ≤ (a.toNat : Int) - m.toNat - (1 - carry s)) =
        decide (255 < a.toNat + (m ^^^ (0xFF : Byte)).toNat + carry s) := by
      rw [hm]
      exact decide_eq_decide.mpr (by omega)
    have hv : (a.msb != m.msb) = (a.msb == (m ^^^ (0xFF : Byte)).msb) := by
      rw [BitVec.msb_xor, show (0xFF : Byte).msb = true from rfl]
      cases a.msb <;> cases m.msb <;> rfl
    refine Prod.ext hfst ?_
    show (s.setFlag .c _).setFlag .v (_ && (subBytes a m s).1.msb != a.msb) =
      (s.setFlag .c _).setFlag .v (_ && (addBytes a (m ^^^ 0xFF) s).1.msb != a.msb)
    rw [hfst, hc, hv]

/-- Settles O36: the flags are the comparison's, or BIT's, with the registers the read leaves. -/
theorem comparesAndBitWriteFlagsOnly : Obligations.ComparesAndBitWriteFlagsOnly := by
  intro i o s m flags
  have hsr : m.2.sr = s.sr := readSource_sr o s
  have hcompare : ∀ r, FlagsWritten m.2.sr (compareBytes r m.1 m.2).sr (flags r) :=
    fun r => flagsWritten_compareBytes m.2 r m.1
  refine ⟨fun hi => runsTo_of_no_pass hi ?_ (hcompare s.a), fun hi => runsTo_of_no_pass hi ?_ (hcompare s.x),
    fun hi => runsTo_of_no_pass hi ?_ (hcompare s.y), fun hi => runsTo_of_no_pass hi ?_ (flagsWritten_bitTest m.2 s.a m.1)⟩
  · show performCmp o _ = _
    simp only [performCmp, readSource_setPc, State.setPc_a, readSource_a]
    rfl
  · show performCpx o _ = _
    simp only [performCpx, readSource_setPc, State.setPc_x, readSource_x]
    rfl
  · show performCpy o _ = _
    simp only [performCpy, readSource_setPc, State.setPc_y, readSource_y]
    rfl
  · show performBit o _ = _
    simp only [performBit, readSource_setPc, State.setPc_a, readSource_a]
    rfl

/-! ## Loads and transfers -/

/-- Settles O37: the operand is read into the register; N and Z come from the generic pass, or from the load of X or Y. -/
theorem loadsWriteTheirRegisters : Obligations.LoadsWriteTheirRegisters := by
  intro i o s m
  refine ⟨fun hi => runsTo_of_pass (writes := []) hi ?_ (.refl _),
    fun hi => runsTo_of_no_pass hi ?_ (flagsWritten_setNZ m.2 m.1),
    fun hi => runsTo_of_no_pass hi ?_ (flagsWritten_setNZ m.2 m.1),
    fun hi => runsTo_of_pass (writes := []) hi ?_ (.refl _)⟩
  · show performLda o _ = _
    simp only [performLda, readSource_setPc]
    rfl
  · show performLdx o _ = _
    simp only [performLdx, readSource_setPc]
    rfl
  · show performLdy o _ = _
    simp only [performLdy, readSource_setPc]
    rfl
  · show performLax o _ = _
    simp only [performLax, readSource_setPc]
    rfl

/-- Settles O40: one register takes another; N and Z come from the generic pass, or from TSX. -/
theorem transfersCopyRegisters : Obligations.TransfersCopyRegisters := fun s =>
  ⟨runsTo_of_pass (writes := []) rfl rfl (.refl _), runsTo_of_pass (writes := []) rfl rfl (.refl _),
    runsTo_of_pass (writes := []) rfl rfl (.refl _), runsTo_of_pass (writes := []) rfl rfl (.refl _),
    runsTo_of_no_pass rfl rfl (flagsWritten_setNZ s s.sp), runsTo_of_no_pass rfl rfl (.refl _)⟩

/-! ## Shifts, rotates and steps -/

/-- The bit a rotate enters at the bottom (R230). -/
theorem shiftLeft_or_one (v : Byte) : v <<< 1 ||| 1 = v <<< 1 + 1 := by
  refine (BitVec.add_eq_or_of_and_eq_zero _ _ (BitVec.eq_of_getLsbD_eq fun i hi => ?_)).symm
  interval_cases i <;> simp

/-- The bit a rotate enters at the top (R231). -/
theorem shiftRight_or_top (v : Byte) : v >>> 1 ||| 0x80 = v >>> 1 + 0x80 := by
  refine (BitVec.add_eq_or_of_and_eq_zero _ _ (BitVec.eq_of_getLsbD_eq fun i hi => ?_)).symm
  interval_cases i <;> simp

/-- R230's result in Nat arithmetic. -/
theorem shiftLeft_fst (rotate : Bool) (v : Byte) (s : State) :
    (shiftLeft rotate v s).1 = BitVec.ofNat 8 (v.toNat * 2 % 256 + if rotate then (s.flag .c).toNat else 0) := by
  have hor : (shiftLeft rotate v s).1 = v <<< 1 + BitVec.ofNat 8 (rotate && s.flag .c).toNat := by
    show v <<< 1 ||| (if (rotate && s.flag .c) = true then 1 else 0 : Byte) = _
    cases rotate && s.flag .c
    · simp
    · exact shiftLeft_or_one v
  refine BitVec.eq_of_toNat_eq ?_
  rw [hor]
  cases rotate <;> cases s.flag .c <;> simp [Nat.shiftLeft_eq]

/-- R231's result in Nat arithmetic. -/
theorem shiftRight_fst (rotate : Bool) (v : Byte) (s : State) :
    (shiftRight rotate v s).1 = BitVec.ofNat 8 (v.toNat / 2 + if rotate then (s.flag .c).toNat * 128 else 0) := by
  have hor : (shiftRight rotate v s).1 = v >>> 1 + BitVec.ofNat 8 ((rotate && s.flag .c).toNat * 128) := by
    show v >>> 1 ||| (if (rotate && s.flag .c) = true then 0x80 else 0 : Byte) = _
    cases rotate && s.flag .c
    · simp
    · exact shiftRight_or_top v
  refine BitVec.eq_of_toNat_eq ?_
  have hlt : v.toNat / 2 < 256 := by omega
  rw [hor]
  cases rotate <;> cases s.flag .c <;> simp [Nat.shiftRight_eq_div_pow, Nat.mod_eq_of_lt hlt]

theorem add_one_eq (v : Byte) : v + 1 = BitVec.ofNat 8 ((v.toNat + 1) % 256) := by bv_omega
theorem sub_one_eq (v : Byte) : v - 1 = BitVec.ofNat 8 ((v.toNat + 255) % 256) := by bv_omega

/-- Settles O41: the accumulator forms take the generic pass, the steps of X and Y write N and Z. -/
theorem registerShiftsAndSteps : Obligations.RegisterShiftsAndSteps := by
  intro s up down c shl shr rol ror
  refine ⟨?_, ?_, ?_, ?_, ?_, ?_, ?_, ?_⟩
  · refine runsTo_of_pass rfl ?_ (flagsWritten_shiftLeft s false s.a)
    rw [show shl = (shiftLeft false s.a s).1 by rw [shiftLeft_fst]; rfl]
    rfl
  · refine runsTo_of_pass rfl ?_ (flagsWritten_shiftRight s false s.a)
    rw [show shr = (shiftRight false s.a s).1 by rw [shiftRight_fst]; rfl]
    rfl
  · refine runsTo_of_pass rfl ?_ (flagsWritten_shiftLeft s true s.a)
    rw [show rol = (shiftLeft true s.a s).1 by rw [shiftLeft_fst]; rfl]
    rfl
  · refine runsTo_of_pass rfl ?_ (flagsWritten_shiftRight s true s.a)
    rw [show ror = (shiftRight true s.a s).1 by rw [shiftRight_fst]; rfl]
    rfl
  · rw [show up s.x = s.x + 1 from (add_one_eq s.x).symm]
    exact runsTo_of_no_pass rfl rfl (flagsWritten_setNZ s _)
  · rw [show up s.y = s.y + 1 from (add_one_eq s.y).symm]
    exact runsTo_of_no_pass rfl rfl (flagsWritten_setNZ s _)
  · rw [show down s.x = s.x - 1 from (sub_one_eq s.x).symm]
    exact runsTo_of_no_pass rfl rfl (flagsWritten_setNZ s _)
  · rw [show down s.y = s.y - 1 from (sub_one_eq s.y).symm]
    exact runsTo_of_no_pass rfl rfl (flagsWritten_setNZ s _)

/-! ## Stack, flags, no-operations -/

/-- Settles O44: a push stores below SP, a pull reads above it. -/
theorem pushesAndPulls : Obligations.PushesAndPulls := by
  intro s v
  have hpull : ∀ pc, pull (s.setPc pc) = (v, (s.setPc pc).setSp (s.sp + 1)) := fun pc => pull_eq _
  refine ⟨runsTo_of_no_pass rfl ?_ (.refl _), runsTo_of_no_pass rfl ?_ (.refl _),
    runsTo_of_pass (writes := []) rfl ?_ (.refl _), runsTo_of_no_pass rfl ?_ (flagsWritten_statusFromStack _ v)⟩
  · show Host.Outcome.next (push _ _) = _
    rw [push_eq]
    rfl
  · show Host.Outcome.next (push _ _) = _
    rw [push_eq]
    rfl
  · show performPla _ = _
    rw [performPla, hpull]
    rfl
  · show performPlp _ = _
    rw [performPlp, hpull]
    rfl

/-- Settles O45: each operation is the write of its flag. -/
theorem flagInstructionsWriteOneFlag : Obligations.FlagInstructionsWriteOneFlag := fun s =>
  ⟨runsTo_of_no_pass rfl rfl (flagsWritten_setFlag s _ _), runsTo_of_no_pass rfl rfl (flagsWritten_setFlag s _ _),
    runsTo_of_no_pass rfl rfl (flagsWritten_setFlag s _ _), runsTo_of_no_pass rfl rfl (flagsWritten_setFlag s _ _),
    runsTo_of_no_pass rfl rfl (flagsWritten_setFlag s _ _), runsTo_of_no_pass rfl rfl (flagsWritten_setFlag s _ _),
    runsTo_of_no_pass rfl rfl (flagsWritten_setFlag s _ _)⟩

/-- Settles O46: neither operation does anything, nor reads an operand. -/
theorem nopsOnlyAdvance : Obligations.NopsOnlyAdvance := by
  intro i s hm
  obtain hm | hm := hm
  · exact runsTo_of_no_pass (o := i.operand) (congrArg (Form.mk · i.operand) hm) rfl (.refl _)
  · exact runsTo_of_no_pass (o := i.operand) (congrArg (Form.mk · i.operand) hm) rfl (.refl _)

/-- The operation of an unlisted mnemonic is none, and takes no generic pass. -/
theorem performOf_unlisted {m : Mnemonic} (h : m.opClass = .undocumentedUnlisted) (o : Operand) (pc0 : Word) (s : State) :
    performOf ⟨m, o⟩ pc0 s = .next s ∧ Form.flagPass ⟨m, o⟩ = false := by
  cases m
  case alr | anc | ane | arr | jam | las | lxa | sbx | sha | shx | shy => exact ⟨rfl, rfl⟩
  all_goals cases h

/-- Settles O47: an unlisted opcode has no operation, or is refused before it. -/
theorem unlistedOpcodesFollowTheirPolicy : Obligations.UnlistedOpcodesFollowTheirPolicy := by
  intro i s hclass
  refine ⟨fun hp => ?_, fun hp => exec_of_refusal (by rw [refusalOf_unlisted hclass, if_pos hp])⟩
  obtain ⟨hnext, hpass⟩ := performOf_unlisted hclass i.operand s.pc (s.setPc (nextPc i s))
  exact runsTo_of_no_pass (m := i.mnemonic) (o := i.operand) rfl hnext (.refl _) hpass
    (by rw [refusalOf_unlisted hclass, if_neg (by simp [hp])])

end Sys2Proof.Machine
end

section
/-! The instructions that make one bus write through a memory mode (42_shift_incdec R232, 43_load_store_transfer, 46_undocumented):
stores and read-modify-write. -/

namespace Sys2Proof.Machine

/-! ## Stores -/

theorem andThen_pure {α : Type} (r : Outcome α) : andThen r .next = r := by cases r <;> rfl

theorem andThen_assoc {α β γ : Type} (r : Outcome α) (k : α → Outcome β) (l : β → Outcome γ) :
    andThen (andThen r k) l = andThen r fun v => andThen (k v) l := by cases r <;> rfl

section Store

variable {i : Instr} {mn : Mnemonic} {m : MemMode} {s : State} {v : Byte}

/-- A store is one bus write and no flag. -/
theorem store_writesAndRuns {value : State → Byte} (hi : i.form = ⟨mn, .src (.mem m)⟩)
    (hp : performOf ⟨mn, .src (.mem m)⟩ s.pc (s.setPc (nextPc i s)) = storeByte m value (s.setPc (nextPc i s)))
    (hvalue : value (s.setPc (nextPc i s)) = v) (hpass : Form.flagPass ⟨mn, .src (.mem m)⟩ = false := by rfl)
    (hr : refusalOf mn s = none := by exact refusalOf_none nofun nofun) :
    WritesAndRuns i s s (addressOf m s) v id [] := by
  refine writesAndRuns_of_performOf (sr := s.sr) (k := .next) hi ?_ (fun u hu => ⟨_, rfl, ?_, ?_⟩) hr
  · rw [hp, storeByte_eq, addressOf_setPc, hvalue]
    exact (andThen_pure _).symm
  · rfl
  · rw [hpass]
    refine statusAfter_of_no_pass ?_
    rw [busWrite_frame hu]
    exact .refl _

end Store

/-- Settles O38: each of the four operations is a store. -/
theorem storesWriteOnceAndTouchNoFlag : Obligations.StoresWriteOnceAndTouchNoFlag := by
  rintro i m s v (⟨hi, rfl⟩ | ⟨hi, rfl⟩ | ⟨hi, rfl⟩ | ⟨hi, rfl⟩)
  · exact store_writesAndRuns (value := State.a) hi rfl rfl
  · exact store_writesAndRuns (value := State.x) hi rfl rfl
  · exact store_writesAndRuns (value := State.y) hi rfl rfl
  · exact store_writesAndRuns (value := fun t => t.a &&& t.x) hi rfl rfl

/-- TAS's value: the high byte of the operand plus one (R358). -/
theorem hiByte_add_one (a : Word) : hiByte a + 1 = BitVec.ofNat 8 (a.toNat / 256 + 1) := by
  refine BitVec.eq_of_toNat_eq ?_
  simp [BitVec.toNat_add, hiByte_toNat]

/-- Settles O39: SP is set first, then the byte is stored from it. -/
theorem tasSetsSpAndStores : Obligations.TasSetsSpAndStores := by
  intro i a s hi s' v e
  refine writesAndRuns_of_performOf (sr := s.sr) (k := .next) hi ?_ fun u hu => ⟨_, rfl, ?_, ?_⟩
  · show storeByte (.aby a) (fun t => t.sp &&& (hiByte a + 1)) _ = _
    rw [storeByte_eq, andThen_pure, show v = s'.sp &&& (hiByte a + 1) by rw [hiByte_add_one]]
    have he : addressOf (.aby a) s' = e := by
      refine (add_index a s.y).trans (BitVec.eq_of_toNat_eq ?_)
      simp [e]
    rw [← he]
    rfl
  · rfl
  · refine statusAfter_of_no_pass ?_
    rw [busWrite_frame hu]
    exact .refl _

/-! ## Read-modify-write -/

/-- Flags all of which are written again. -/
theorem FlagsWritten.overwrite {old mid new : Byte} {first second : List (Flag × Bool)} (h : FlagsWritten old mid first)
    (h' : FlagsWritten mid new second) (hsub : ∀ p ∈ first, p.1 ∈ second.map Prod.fst) : FlagsWritten old new second := by
  refine ⟨h'.1, fun f hf => (h'.2 f hf).trans (h.2 f fun hfirst => hf ?_)⟩
  obtain ⟨p, hp, rfl⟩ := List.mem_map.mp hfirst
  exact hsub p hp

/-- Past the advance of PC, a read-modify-write is one read, one write of what the computation makes of it, and what follows. -/
theorem andThen_modify_setPc {f : Byte → State → Byte × State} (hf : ∀ v, OnSr (f v)) (m : MemMode) (s : State) (pc : Word)
    (k : Byte × State → Result) :
    andThen (modify m f (s.setPc pc)) k =
      andThen (busWrite (addressOf m s) (f (busRead (addressOf m s) s).1 s).1
          (((busRead (addressOf m s) s).2.setPc pc).setSr (f (busRead (addressOf m s) s).1 s).2.sr)) fun t =>
        k ((f (busRead (addressOf m s) s).1 s).1, t) := by
  have hsr : ((busRead (addressOf m s) s).2.setPc pc).sr = s.sr := busRead_sr (addressOf m s) s
  rw [modify_eq, addressOf_setPc, busRead_regUpdate (regUpdate_setPc pc), andThen_assoc]
  simp only [hf _ hsr, andThen_next]

section Modify

variable {i : Instr} {mn : Mnemonic} {m : MemMode} {s : State} {f : Byte → State → Byte × State} {k : Byte × State → Result}
  {r : Byte} {after : State → State} {writes : List (Flag × Bool)}

/-- An instruction whose operation is a read-modify-write and what follows it. -/
theorem modify_writesAndRuns (hi : i.form = ⟨mn, .src (.mem m)⟩) (hf : ∀ v, OnSr (f v))
    (hp : performOf ⟨mn, .src (.mem m)⟩ s.pc (s.setPc (nextPc i s)) = andThen (modify m f (s.setPc (nextPc i s))) k)
    (hresult : (f (busRead (addressOf m s) s).1 s).1 = r)
    (hk : ∀ u : State, u.a = s.a → u.sr = s.sr → ∃ w,
      k (r, (u.setPc (nextPc i s)).setSr (f (busRead (addressOf m s) s).1 s).2.sr) = .next w ∧
      w = ((after u).setSr w.sr).setPc (nextPc i s) ∧
      StatusAfter (after u).sr (finishInstr (Form.flagPass ⟨mn, .src (.mem m)⟩) w).sr writes)
    (hr : refusalOf mn s = none := by exact refusalOf_none nofun nofun) :
    WritesAndRuns i s (busRead (addressOf m s) s).2 (addressOf m s) r after writes := by
  subst hresult
  refine writesAndRuns_of_performOf hi (hp.trans (andThen_modify_setPc hf m s _ k)) (fun u hu => hk u ?_ ?_) hr
  · rw [busWrite_frame hu]
    exact busRead_a _ _
  · rw [busWrite_frame hu]
    exact busRead_sr _ _

/-- A read-modify-write that ends with N and Z of the byte written. -/
theorem modify_nz (hi : i.form = ⟨mn, .src (.mem m)⟩) (hf : ∀ v, OnSr (f v))
    (hp : performOf ⟨mn, .src (.mem m)⟩ s.pc (s.setPc (nextPc i s)) =
      andThen (modify m f (s.setPc (nextPc i s))) fun p => .next (setNZ p.1 p.2))
    (hresult : (f (busRead (addressOf m s) s).1 s).1 = r)
    (hw : FlagsWritten s.sr (f (busRead (addressOf m s) s).1 s).2.sr writes) (hnz : NoNZ writes := by simp [NoNZ])
    (hpass : Form.flagPass ⟨mn, .src (.mem m)⟩ = false := by rfl)
    (hr : refusalOf mn s = none := by exact refusalOf_none nofun nofun) :
    WritesAndRuns i s (busRead (addressOf m s) s).2 (addressOf m s) r id (nzOf r ++ writes) := by
  refine modify_writesAndRuns hi hf hp hresult (fun u _ husr => ⟨_, rfl, rfl, ?_⟩) hr
  rw [hpass]
  refine statusAfter_of_no_pass (FlagsWritten.trans (husr ▸ hw) (flagsWritten_setNZ _ r) fun p hp => ?_)
  simpa [nzOf] using hnz p hp

/-- A read-modify-write that ends by setting A, N and Z from the generic pass. -/
theorem modify_pass {a sr : Byte} (hi : i.form = ⟨mn, .src (.mem m)⟩) (hf : ∀ v, OnSr (f v))
    (hp : performOf ⟨mn, .src (.mem m)⟩ s.pc (s.setPc (nextPc i s)) = andThen (modify m f (s.setPc (nextPc i s))) k)
    (hresult : (f (busRead (addressOf m s) s).1 s).1 = r)
    (hk : ∀ t : State, t.a = s.a → t.sr = (f (busRead (addressOf m s) s).1 s).2.sr →
      k (r, t) = .next ((t.setSr sr).setA a))
    (hw : FlagsWritten s.sr sr writes) (hnz : NoNZ writes := by simp [NoNZ])
    (hpass : Form.flagPass ⟨mn, .src (.mem m)⟩ = true := by rfl)
    (hr : refusalOf mn s = none := by exact refusalOf_none nofun nofun) :
    WritesAndRuns i s (busRead (addressOf m s) s).2 (addressOf m s) r (fun u => { u with a := a }) (nzOf a ++ writes) := by
  refine modify_writesAndRuns hi hf hp hresult (fun u hua husr => ⟨_, hk _ hua rfl, rfl, ?_⟩) hr
  rw [hpass]
  refine statusAfter_flagPass hnz hw.1 fun g hg => ?_
  exact (hw.2 g hg).trans (by rw [← husr])

/-- A read-modify-write that ends by combining the byte written with A. -/
theorem modify_combine {g : Byte → Byte → Byte} (hi : i.form = ⟨mn, .src (.mem m)⟩) (hf : ∀ v, OnSr (f v))
    (hp : performOf ⟨mn, .src (.mem m)⟩ s.pc (s.setPc (nextPc i s)) =
      andThen (modify m f (s.setPc (nextPc i s))) fun p => .next (p.2.setA (g p.2.a p.1)))
    (hresult : (f (busRead (addressOf m s) s).1 s).1 = r)
    (hw : FlagsWritten s.sr (f (busRead (addressOf m s) s).1 s).2.sr writes) (hnz : NoNZ writes := by simp [NoNZ])
    (hpass : Form.flagPass ⟨mn, .src (.mem m)⟩ = true := by rfl)
    (hr : refusalOf mn s = none := by exact refusalOf_none nofun nofun) :
    WritesAndRuns i s (busRead (addressOf m s) s).2 (addressOf m s) r (fun u => { u with a := g s.a r })
      (nzOf (g s.a r) ++ writes) := by
  refine modify_pass hi hf hp hresult (fun t ha hsr => ?_) hw hnz hpass hr
  rw [ha, ← hsr]
  rfl

end Modify

/-- Settles O42: each operation is a read-modify-write that ends with N and Z of its result. -/
theorem memoryShiftsAndSteps : Obligations.MemoryShiftsAndSteps := by
  intro i m s e old v c rmw
  refine ⟨fun hi => ?_, fun hi => ?_, fun hi => ?_, fun hi => ?_, fun hi => ?_, fun hi => ?_⟩
  · exact modify_nz hi (onSr_shiftLeft false) rfl (shiftLeft_fst false old.1 s) (flagsWritten_shiftLeft s false old.1)
  · exact modify_nz hi (onSr_shiftRight false) rfl (shiftRight_fst false old.1 s) (flagsWritten_shiftRight s false old.1)
  · exact modify_nz hi (onSr_shiftLeft true) rfl (shiftLeft_fst true old.1 s) (flagsWritten_shiftLeft s true old.1)
  · exact modify_nz hi (onSr_shiftRight true) rfl (shiftRight_fst true old.1 s) (flagsWritten_shiftRight s true old.1)
  · exact modify_nz hi (fun v => onSr_const (v + 1)) rfl (add_one_eq old.1) (.refl _)
  · exact modify_nz hi (fun v => onSr_const (v - 1)) rfl (sub_one_eq old.1) (.refl _)

/-- RRA's C is the sum's, with the carry its rotate produced; V as ADD writes it (R357). -/
theorem flagsWritten_rra (s : State) (a r v : Byte) :
    FlagsWritten s.sr (addBytes a r (shiftRight true v s).2).2.sr
      [(.c, decide (a.toNat + r.toNat + (v.getLsbD 0).toNat > 255)),
        (.v, a.msb == r.msb && (addBytes a r (shiftRight true v s).2).1.msb != a.msb)] := by
  have hc : (shiftRight true v s).2.flag .c = v.getLsbD 0 := by simp [shiftRight]
  have := flagsWritten_addBytes (shiftRight true v s).2 a r
  rw [hc] at this
  exact (flagsWritten_shiftRight s true v).overwrite this (by simp)

/-- Settles O43: each operation is a read-modify-write that ends by combining its result with A. -/
theorem undocumentedReadModifyWrite : Obligations.UndocumentedReadModifyWrite := by
  intro i m s e old v c rmw shl rol shr ror sum added diff left
  refine ⟨fun hi => ?_, fun hi => ?_, fun hi => ?_, fun hi => ?_, fun hi => ?_, fun hi => ?_⟩
  · exact modify_combine (g := (· ||| ·)) hi (onSr_shiftLeft false) rfl (shiftLeft_fst false v s)
      (flagsWritten_shiftLeft s false v)
  · exact modify_combine (g := (· &&& ·)) hi (onSr_shiftLeft true) rfl (shiftLeft_fst true v s)
      (flagsWritten_shiftLeft s true v)
  · exact modify_combine (g := (· ^^^ ·)) hi (onSr_shiftRight false) rfl (shiftRight_fst false v s)
      (flagsWritten_shiftRight s false v)
  · have hc : (shiftRight true v s).2.flag .c = v.getLsbD 0 := by simp [shiftRight]
    have hadded : (addBytes s.a ror (shiftRight true v s).2).1 = added := by rw [addBytes_fst, hc]
    refine modify_pass hi (onSr_shiftRight true) rfl (shiftRight_fst true v s)
      (fun t ha (hsr : t.sr = (shiftRight true v s).2.sr) => ?_) (hadded ▸ flagsWritten_rra s s.a ror v)
    rw [ha, onSr_addBytes s.a ror hsr, hadded]
  · refine modify_writesAndRuns hi (fun v => onSr_const (v - 1)) rfl rfl fun u ha hsr => ⟨_, rfl, ?_, ?_⟩
    · rw [← ha]
      rfl
    · rw [← ha]
      exact statusAfter_of_no_pass (hsr ▸ flagsWritten_compareBytes u u.a (v - 1))
  · have hleft : (subBytes s.a (v + 1) s).1 = left := subBytes_fst ..
    refine modify_pass hi (fun v => onSr_const (v + 1)) rfl rfl (fun t ha (hsr : t.sr = s.sr) => ?_)
      (hleft ▸ flagsWritten_subBytes s s.a (v + 1))
    rw [ha, onSr_subBytes s.a (v + 1) hsr, hleft]

end Sys2Proof.Machine
end

section
/-! Control transfer (45_control, 60_exceptions R392-R395): jumps, calls, returns, BRK and the branches. -/

namespace Sys2Proof.Machine

/-! ## Jumps, calls and returns -/

/-- Memory after JSR's push, in Nat arithmetic (R321, R91). -/
theorem wordPushed_eq (m : Memory) (sp : Byte) (pc : Word) :
    wordPushed m sp (pc + 2) =
      (m.put (0x0100 + sp.toNat) (BitVec.ofNat 8 ((pc.toNat + 2) % 65536 / 256))).put (0x0100 + (sp - 1).toNat)
        (BitVec.ofNat 8 ((pc.toNat + 2) % 65536 % 256)) := by
  have hpc : (pc + 2).toNat = (pc.toNat + 2) % 65536 := BitVec.toNat_add pc 2
  have hhi : hiByte (pc + 2) = BitVec.ofNat 8 ((pc.toNat + 2) % 65536 / 256) := by
    refine BitVec.eq_of_toNat_eq ?_
    rw [hiByte_toNat, hpc, BitVec.toNat_ofNat]
    omega
  have hlo : loByte (pc + 2) = BitVec.ofNat 8 ((pc.toNat + 2) % 65536 % 256) := by
    refine BitVec.eq_of_toNat_eq ?_
    rw [loByte_toNat, hpc, BitVec.toNat_ofNat]
    omega
  rw [wordPushed, hhi, hlo, stackAddr_toNat, stackAddr_toNat]

/-- Settles O48: PC takes the operand, or the word the pointer reads. -/
theorem jumpsAndCallsReachTheirTarget : Obligations.JumpsAndCallsReachTheirTarget := by
  intro a s ret
  refine ⟨runsTo_of_no_pass rfl rfl (.refl _), runsTo_of_no_pass rfl ?_ (.refl _), runsTo_of_no_pass rfl ?_ (.refl _)⟩
  · show performJmpInd a _ = _
    simp only [performJmpInd, read16_regUpdate (regUpdate_setPc _)]
    rfl
  · show performJsr a s.pc _ = _
    rw [performJsr, pushWord_eq, State.setPc_mem, State.setPc_sp, wordPushed_eq]
    rfl

/-- A word of two bytes, in Nat arithmetic. -/
theorem mkWord_eq (h l : Byte) : mkWord h l = BitVec.ofNat 16 (h.toNat * 256 + l.toNat) := by
  rw [← mkWord_toNat, BitVec.ofNat_toNat, BitVec.setWidth_eq]

theorem mkWord_add_one (h l : Byte) : mkWord h l + 1 = BitVec.ofNat 16 (h.toNat * 256 + l.toNat + 1) := by
  rw [mkWord_eq, BitVec.ofNat_add _ 1]
  rfl

/-- Settles O49: the bytes above SP, pulled one after another. -/
theorem returnsPullTheirFrames : Obligations.ReturnsPullTheirFrames := by
  intro s pulled v
  refine ⟨runsTo_of_no_pass rfl ?_ (.refl _), runsTo_of_no_pass rfl ?_ (flagsWritten_statusFromStack _ v)⟩
  · show performRts _ = _
    simp only [performRts, pullWord_eq, mkWord_add_one]
    rfl
  · show performRti _ = _
    rw [performRti, returnFromInterrupt_eq, mkWord_eq]
    rfl

/-! ## BRK -/

/-- Settles O50: the frame is pushed; the policy decides what follows it, or refuses first. -/
theorem brkFollowsItsPolicy : Obligations.BrkFollowsItsPolicy := by
  intro padding s pushed
  have hframe : ∀ pc, pushFrame (s.pc + 2) (statusForBrk s.sr) (s.setPc pc) = pushed.setPc pc :=
    fun pc => pushFrame_eq _ _ _
  have hno : s.params.brk ≠ .refuse → refusalOf .brk s = none := fun h => by rw [refusalOf_brk, if_neg h]
  refine ⟨fun hp => ?_, fun hp => ?_, fun hp => exec_of_refusal ?_⟩
  · refine runsTo_of_no_pass rfl ?_ (flagsWritten_setFlag pushed .i true) rfl (hno (by simp [hp]))
    show performBrk s.pc _ = _
    simp only [performBrk, State.setPc_params, hp]
    rw [enterInterrupt_eq _ _ (by decide)]
    rfl
  · refine runsTo_of_no_pass rfl ?_ (.refl _) rfl (hno (by simp [hp]))
    show performBrk s.pc _ = _
    simp only [performBrk, State.setPc_params, hp]
    exact congrArg Host.Outcome.next (hframe _)
  · exact (refusalOf_brk s).trans (if_pos hp)

/-! ## Branches -/

/-- A branch runs to its target when it is taken, and to the next instruction when not (R325). -/
theorem branch_runsTo {i : Instr} {m : Mnemonic} {d : Int} {s : State} {taken : Bool} (hi : i.form = ⟨m, .rel d⟩)
    (hp : performOf ⟨m, .rel d⟩ s.pc (s.setPc (nextPc i s)) = branch taken d s.pc (s.setPc (nextPc i s)))
    (hpass : Form.flagPass ⟨m, .rel d⟩ = false := by rfl)
    (hr : refusalOf m s = none := by exact refusalOf_none nofun nofun) :
    RunsTo i s s (BitVec.ofInt 16 (if taken then s.pc.toNat + d + 2 else s.pc.toNat + 2)) [] := by
  refine runsTo_of_no_pass hi (hp.trans ?_) (.refl _) hpass hr
  have hpc : BitVec.ofInt 16 (s.pc.toNat : Int) = s.pc := by simp
  cases taken
  · have : nextPc i s = BitVec.ofInt 16 (s.pc.toNat + 2) := by
      rw [BitVec.ofInt_add, hpc, nextPc, Instr.length, hi]
      rfl
    rw [this]
    rfl
  · have : s.pc + BitVec.ofInt 16 d + 2 = BitVec.ofInt 16 (s.pc.toNat + d + 2) := by
      rw [BitVec.ofInt_add, BitVec.ofInt_add, hpc]
      rfl
    simp only [branch, if_true, this]
    rfl

/-- Settles O51: each operation is the branch on its flag. -/
theorem branchesTestOneFlag : Obligations.BranchesTestOneFlag := fun _ _ =>
  ⟨branch_runsTo rfl rfl, branch_runsTo rfl rfl, branch_runsTo rfl rfl, branch_runsTo rfl rfl, branch_runsTo rfl rfl,
    branch_runsTo rfl rfl, branch_runsTo rfl rfl, branch_runsTo rfl rfl⟩

/-! ## Returning from where one came -/

/-- A pushed word is pulled where it was pushed. -/
theorem byteAt_wordPushed (m : Memory) (sp : Byte) (w : Word) :
    (wordPushed m sp w).byteAt (0x0100 + sp.toNat) = hiByte w ∧
      (wordPushed m sp w).byteAt (0x0100 + (sp - 1).toNat) = loByte w := by
  have hne : 0x0100 + sp.toNat ≠ 0x0100 + (sp - 1).toNat := by bv_omega
  simp only [wordPushed, stackAddr_toNat]
  exact ⟨by rw [byteAt_put_ne hne, byteAt_put_self], byteAt_put_self ..⟩

/-- A pushed frame is pulled where it was pushed. -/
theorem byteAt_framePushed_stack (m : Memory) (sp : Byte) (w : Word) (status : Byte) :
    (framePushed m sp w status).byteAt (0x0100 + sp.toNat) = hiByte w ∧
      (framePushed m sp w status).byteAt (0x0100 + (sp - 1).toNat) = loByte w ∧
      (framePushed m sp w status).byteAt (0x0100 + (sp - 2).toNat) = status := by
  obtain ⟨hhi, hlo⟩ := byteAt_wordPushed m sp w
  have hne : 0x0100 + sp.toNat ≠ 0x0100 + (sp - 2).toNat := by bv_omega
  have hne' : 0x0100 + (sp - 1).toNat ≠ 0x0100 + (sp - 2).toNat := by bv_omega
  simp only [framePushed, stackAddr_toNat]
  exact ⟨by rw [byteAt_put_ne hne, hhi], by rw [byteAt_put_ne hne', hlo], byteAt_put_self ..⟩

/-- The state an instruction runs to is the one it completes in. -/
theorem RunsTo.eq_of_exec {i : Instr} {s t u : State} {pc : Word} {writes : List (Flag × Bool)}
    (h : RunsTo i s t pc writes) (hu : exec i s = .next u) :
    u = { t with sr := u.sr, pc := pc } ∧ StatusAfter t.sr u.sr writes := by
  obtain ⟨sr, hexec, hstatus⟩ := h
  obtain rfl : { t with sr := sr, pc := pc } = u := by simpa [hexec] using hu
  exact ⟨rfl, hstatus⟩

/-- JSR leaves the address of its last byte on the stack (R321). -/
theorem exec_jsr {a : Word} {s t : State} (h : exec (.jsrAbs a) s = .next t) :
    t.mem = wordPushed s.mem s.sp (s.pc + 2) ∧ t.sp = s.sp - 2 := by
  obtain ⟨-, -, hjsr⟩ := jumpsAndCallsReachTheirTarget a s
  obtain ⟨e, -⟩ := hjsr.eq_of_exec h
  rw [e, wordPushed_eq]
  exact ⟨rfl, rfl⟩

/-- RTS goes to the word above SP, plus one (R322). -/
theorem exec_rts {u v : State} (h : exec .rts u = .next v) :
    v.pc = mkWord (u.mem.byteAt (0x0100 + (u.sp + 2).toNat)) (u.mem.byteAt (0x0100 + (u.sp + 1).toNat)) + 1 ∧
      v.sp = u.sp + 2 := by
  obtain ⟨hrts, -⟩ := returnsPullTheirFrames u
  obtain ⟨e, -⟩ := hrts.eq_of_exec h
  rw [e, mkWord_add_one]
  exact ⟨rfl, rfl⟩

/-- RTI goes to the word above the status byte, and takes every flag of that byte but B (R323). -/
theorem exec_rti {u v : State} (h : exec .rti u = .next v) :
    v.pc = mkWord (u.mem.byteAt (0x0100 + (u.sp + 3).toNat)) (u.mem.byteAt (0x0100 + (u.sp + 2).toNat)) ∧
      v.sp = u.sp + 3 ∧
      ∀ f, v.flag f = if f = .b then false else srFlag (u.mem.byteAt (0x0100 + (u.sp + 1).toNat)) f := by
  obtain ⟨-, hrti⟩ := returnsPullTheirFrames u
  obtain ⟨e, -, hwrites, -⟩ := hrti.eq_of_exec h
  refine ⟨?_, ?_, fun f => ?_⟩
  · rw [e, mkWord_eq]
  · rw [e]
  · simp only [List.forall_mem_cons] at hwrites
    obtain ⟨hn, hv, hb, hd, hi, hz, hc, -⟩ := hwrites
    cases f
    exacts [hn, hv, hb, hd, hi, hz, hc]

/-- The status byte an NMI entry pushes has every flag but B (R392). -/
theorem srFlag_statusForNmi (sr : Byte) {f : Flag} (hf : f ≠ .b) : srFlag (statusForNmi sr) f = srFlag sr f := by
  cases f
  case b => exact absurd rfl hf
  all_goals simp [srFlag, Flag.bit, statusForNmi]

/-- Settles O52: the bytes the return pulls are those the call, or the entry, pushed. -/
theorem returnsUndoTheirCalls : Obligations.ReturnsUndoTheirCalls := by
  refine ⟨fun a s t u v hjsr hmem hsp hrts => ?_, fun s u v hmem hsp hrti => ?_⟩
  · obtain ⟨hmem', hsp'⟩ := exec_jsr hjsr
    obtain ⟨hpc, hv⟩ := exec_rts hrts
    obtain ⟨hhi, hlo⟩ := byteAt_wordPushed s.mem s.sp (s.pc + 2)
    have h1 : u.sp + 1 = s.sp - 1 := by rw [hsp, hsp']; bv_omega
    have h2 : u.sp + 2 = s.sp := by rw [hsp, hsp']; bv_omega
    rw [h1, h2, hmem, hmem', hhi, hlo, mkWord_hi_lo] at hpc
    exact ⟨hpc.trans (by bv_omega), hv.trans h2⟩
  · rw [enterNmi_eq] at hmem hsp
    simp only at hmem hsp
    obtain ⟨hpc, hv, hflags⟩ := exec_rti hrti
    obtain ⟨hhi, hlo, hstatus⟩ := byteAt_framePushed_stack s.mem s.sp s.pc (statusForNmi s.sr)
    have h1 : u.sp + 1 = s.sp - 2 := by rw [hsp]; bv_omega
    have h2 : u.sp + 2 = s.sp - 1 := by rw [hsp]; bv_omega
    have h3 : u.sp + 3 = s.sp := by rw [hsp]; bv_omega
    rw [h2, h3, hmem, hhi, hlo, mkWord_hi_lo] at hpc
    rw [h1, hmem, hstatus] at hflags
    refine ⟨hpc, hv.trans h3, (hflags .b).trans (if_pos rfl), fun f hf => ?_⟩
    rw [hflags, if_neg hf, srFlag_statusForNmi _ hf]
    rfl

end Sys2Proof.Machine
end

section
/-! The cartridge load (70_reset_and_hazards R440-R450): what it checks, in order, and the state it leaves. -/

namespace Sys2Proof.Machine

/-! ## The header -/

/-- The two nibbles of the identifier do not overlap (R440). -/
theorem headerMapperId_toNat (image : List Byte) :
    (headerMapperId image).toNat = (headerByte image 7).toNat / 16 * 16 + (headerByte image 6).toNat / 16 := by
  have hhigh : headerByte image 7 &&& (0xF0 : Byte) = (headerByte image 7 >>> 4) <<< 4 := by
    refine BitVec.eq_of_getLsbD_eq fun i hi => ?_
    interval_cases i <;> simp
  have hdisjoint : headerByte image 7 &&& (0xF0 : Byte) &&& headerByte image 6 >>> 4 = 0 := by
    refine BitVec.eq_of_getLsbD_eq fun i hi => ?_
    interval_cases i <;> simp
  rw [headerMapperId, ← BitVec.add_eq_or_of_and_eq_zero _ _ hdisjoint, hhigh]
  simp only [BitVec.toNat_add, BitVec.toNat_shiftLeft, BitVec.toNat_ushiftRight, Nat.shiftLeft_eq, Nat.shiftRight_eq_div_pow]
  omega

/-- The image has every byte its header promises (R440). -/
def ImageWhole (image : List Byte) : Prop :=
  16 + (headerByte image 4).toNat * 16384 + (headerByte image 5).toNat * 8192 ≤ image.length

/-- A whole image gives a cartridge with the bytes its bank counts promise (R44). -/
theorem cartridgeOf_wf {image : List Byte} (h : ImageWhole image) : (cartridgeOf image).Wf := by
  unfold ImageWhole at h
  simp only [Cartridge.Wf, cartridgeOf, List.length_take, List.length_drop]
  omega

/-! ## What a load does -/

/-- The mapper and the banks a load maps at 0x8000 and at 0xC000 (R446-R448). -/
def InitialBanks (c : Cartridge) (kind : MapperKind) (low high : Nat) : Prop :=
  (kind = .noMapper ∧ c.mapperId = 0 ∧ c.prgBanks ≤ 2 ∧ low = 0 ∧ high = c.prgBanks - 1) ∨
    (kind = .mmc1 ∧ c.mapperId = 1 ∧ 2 ≤ c.prgBanks ∧ low = c.prgBanks - 2 ∧ high = c.prgBanks - 1)

/-- The calls a load makes: the first 8KB of the character ROM, where there is any (R449). -/
def loadCalls (c : Cartridge) : List VideoCall :=
  if c.chrBanks = 0 then [] else [.setPatternMemory 0 (c.chr.take 8192)]

/-- Sending the character data records those calls. -/
theorem loadChr_eq (s : State) :
    loadChr s = s.setVideo { s.video with calls := loadCalls s.cart ++ s.video.calls } := by
  unfold loadChr loadCalls
  split <;> rfl

/-- Everything `configure` can do when it completes. -/
theorem configure_next {s t : State} (h : configure s = .next t) :
    ∃ kind low high, InitialBanks s.cart kind low high ∧
      t = loadChr { copyPrg high 0xC000 (copyPrg low 0x8000 s) with mapper := kind } := by
  unfold configure at h
  split at h
  · rename_i hid
    split at h
    · cases h
    · cases h
      exact ⟨.noMapper, 0, _, .inl ⟨rfl, hid, by omega, rfl, rfl⟩, rfl⟩
  · split at h
    · rename_i hid
      split at h
      · cases h
      · cases h
        exact ⟨.mmc1, _, _, .inr ⟨rfl, hid, by omega, rfl, rfl⟩, rfl⟩
    · cases h

/-- The state a load leaves, given the mapper and the banks it maps. -/
def loadedState (l : Launch) (image : List Byte) (s : State) (kind : MapperKind) (low high : Nat) : State :=
  let u := loadChr { copyPrg high 0xC000 (copyPrg low 0x8000 (launchState l (cartridgeOf image) s)) with mapper := kind }
  u.setPc (mkWord (u.mem.byteAt 0xFFFD) (u.mem.byteAt 0xFFFC))

/-- The end of a load: PC from the reset vector, which lies in the ROM window (R450). -/
theorem read16_resetVector (s : State) :
    read16 resetVector s = (mkWord (s.mem.byteAt 0xFFFD) (s.mem.byteAt 0xFFFC), s) :=
  read16_of_high (by decide) s

/-- A load that completes, taken apart. -/
theorem load_next {l : Launch} {image : List Byte} {s t : State} (h : s.load l image = .next t) :
    ImageWhole image ∧ (headerByte image 4).toNat ≠ 0 ∧ ∃ kind low high,
      InitialBanks (cartridgeOf image) kind low high ∧ t = loadedState l image s kind low high := by
  unfold State.load at h
  split at h
  · cases h
  · cases h
  · split at h
    · cases h
    · split at h
      · cases h
      · split at h
        · cases h
        · rename_i hprg
          split at h
          · cases h
          · rename_i hlength
            cases hconf : configure (launchState l (cartridgeOf image) s) with
            | fault f => simp [hconf] at h
            | refused r => simp [hconf] at h
            | next u =>
              obtain ⟨kind, low, high, hbanks, rfl⟩ := configure_next hconf
              simp only [hconf, read16_resetVector, Host.Outcome.next.injEq] at h
              refine ⟨by unfold ImageWhole; omega, fun e => hprg (BitVec.eq_of_toNat_eq e), kind, low, high, hbanks, h.symm⟩

section Loaded

variable (l : Launch) (image : List Byte) (s : State) (kind : MapperKind) (low high : Nat)

/-- The memory a load leaves: launch RAM under two banks. -/
theorem loadedState_mem : (loadedState l image s kind low high).mem =
    (copyPrg high 0xC000 (copyPrg low 0x8000 (launchState l (cartridgeOf image) s))).mem := by
  simp [loadedState, loadChr_eq]

theorem loadedState_video : (loadedState l image s kind low high).video =
    { s.video with calls := loadCalls (cartridgeOf image) ++ s.video.calls } := by
  simp only [loadedState, loadChr_eq]
  rfl

/-- Everything else a load leaves is the launch state's. -/
theorem loadedState_eq : loadedState l image s kind low high =
    { launchState l (cartridgeOf image) s with
      mem := (loadedState l image s kind low high).mem
      mapper := kind
      video := (loadedState l image s kind low high).video
      pc := (loadedState l image s kind low high).pc } := by
  simp only [loadedState, loadChr_eq]
  rfl

end Loaded

/-- Settles O57: below the ROM window the copies change nothing of the launch state. -/
theorem loadSetsTheResetState : Obligations.LoadSetsTheResetState := by
  intro l image s t hram hload
  obtain ⟨-, -, kind, low, high, -, rfl⟩ := load_next hload
  have hbytes : ∀ a, a < 32768 → l.ram[a]? = some ((loadedState l image s kind low high).mem.byteAt a) := fun a ha => by
    rw [loadedState_mem, byteAt_copyPrg_below high _ (by omega), byteAt_copyPrg_below low _ ha]
    show _ = some (Memory.byteAt (Memory.putBlock [] 0 (l.ram.take 32768)) a)
    rw [byteAt_putBlock, if_pos (by simp; omega)]
    simp [ha, hram]
  have hlaunch := loadedState_eq l image s kind low high
  exact ⟨congrArg State.a hlaunch, congrArg State.x hlaunch, congrArg State.y hlaunch, congrArg State.sp hlaunch,
    congrArg State.sr hlaunch, hbytes, congrArg (·.mmc1.control) hlaunch, congrArg (·.mmc1.chrBank0) hlaunch,
    congrArg (·.mmc1.chrBank1) hlaunch, congrArg (·.mmc1.prgBank) hlaunch, congrArg State.icount hlaunch,
    (congrArg State.params hlaunch :), by rw [loadedState_video], (congrArg State.frameBuffer hlaunch :), rfl⟩

/-- A load shows the two banks it maps, which are banks of the image. -/
theorem loadedState_showsBanks {l : Launch} {image : List Byte} {s : State} {kind : MapperKind} {low high : Nat}
    (himage : ImageWhole image) (hlow : low < (cartridgeOf image).prgBanks) (hhigh : high < (cartridgeOf image).prgBanks) :
    ShowsBank (loadedState l image s kind low high) 0x8000 low ∧
      ShowsBank (loadedState l image s kind low high) 0xC000 high := by
  have hcart : (loadedState l image s kind low high).cart = cartridgeOf image :=
    congrArg State.cart (loadedState_eq l image s kind low high)
  have := showsBank_copies (s := launchState l (cartridgeOf image) s) (cartridgeOf_wf himage) hlow hhigh
  unfold ShowsBank at *
  rw [hcart, loadedState_mem]
  exact this

/-- The banks a load maps are in the image. -/
theorem InitialBanks.lt {c : Cartridge} {kind : MapperKind} {low high : Nat} (h : InitialBanks c kind low high)
    (hbanks : c.prgBanks ≠ 0) : low < c.prgBanks ∧ high < c.prgBanks := by
  obtain ⟨-, -, -, rfl, rfl⟩ | ⟨-, -, -, rfl, rfl⟩ := h
  · omega
  · omega

/-- The bytes of a part of an image. -/
theorem getElem?_part (image : List Byte) (start n : Nat) {k : Nat} (hk : k < n) :
    ((image.drop start).take n)[k]? = image[start + k]? := by
  rw [List.getElem?_take, if_pos hk, List.getElem?_drop]

/-- Settles O58: the cartridge is the image's parts, and the banks and the call are those of the load. -/
theorem loadMapsTheInitialBanks : Obligations.LoadMapsTheInitialBanks := by
  intro l image s t hload prgLen chrLen
  obtain ⟨himage, hprg, kind, low, high, hbanks, rfl⟩ := load_next hload
  have hloaded := loadedState_eq l image s kind low high
  have hcart : (loadedState l image s kind low high).cart = cartridgeOf image := congrArg State.cart hloaded
  have hkind : (loadedState l image s kind low high).mapper = kind := congrArg State.mapper hloaded
  obtain ⟨hlow, hhigh⟩ := hbanks.lt hprg
  obtain ⟨hshowlow, hshowhigh⟩ := loadedState_showsBanks (l := l) (s := s) (kind := kind) himage hlow hhigh
  obtain ⟨hprglen, hchrlen⟩ := cartridgeOf_wf himage
  rw [hcart, hkind, loadedState_video]
  refine ⟨rfl, rfl, headerMapperId_toNat image, rfl, ⟨hprglen, fun k hk => getElem?_part image 16 _ hk⟩,
    ⟨hchrlen, fun k hk => getElem?_part image _ _ hk⟩, ?_, rfl⟩
  obtain ⟨rfl, hid, htwo, rfl, rfl⟩ | ⟨rfl, hid, htwo, rfl, rfl⟩ := hbanks
  · refine .inl ⟨rfl, hid, hshowlow, ?_⟩
    obtain e | e : (cartridgeOf image).prgBanks = 1 ∨ (cartridgeOf image).prgBanks = 2 := by
      have : (cartridgeOf image).prgBanks ≠ 0 := hprg
      omega
    · exact .inl ⟨e, by simpa [e] using hshowhigh⟩
    · exact .inr ⟨e, by simpa [e] using hshowhigh⟩
  · exact .inr ⟨rfl, hid, htwo, hshowlow, hshowhigh⟩

/-- Settles O60: launch RAM under two banks is in canonical form, the counters are 0, and the banks are the image's. -/
theorem loadEstablishesTheInvariants : Obligations.LoadEstablishesTheInvariants := by
  intro l image s t hload
  obtain ⟨himage, hprg, kind, low, high, hbanks, rfl⟩ := load_next hload
  have hloaded := loadedState_eq l image s kind low high
  have hcart : (loadedState l image s kind low high).cart = cartridgeOf image := congrArg State.cart hloaded
  have hmmc1 : (loadedState l image s kind low high).mmc1 = .initial := congrArg State.mmc1 hloaded
  have hram : (launchState l (cartridgeOf image) s).mem.wf := putBlock_wf nil_wf (by simp)
  obtain ⟨hlow, hhigh⟩ := hbanks.lt hprg
  refine ⟨wf_iff_forall_reg.mpr ⟨?_, fun r => ?_⟩, hcart ▸ cartridgeOf_wf himage, low, high,
    loadedState_showsBanks himage hlow hhigh⟩
  · rw [loadedState_mem]
    exact copies_wf hram low high
  · rw [hmmc1]
    cases r <;> decide

/-! ## Failures -/

/-- The end of a load that `configure` completes (R450). -/
def finishLoad : LoadOutcome State → LoadOutcome State
  | .next u => .next (u.setPc (mkWord (u.mem.byteAt 0xFFFD) (u.mem.byteAt 0xFFFC)))
  | .fault f => .fault f
  | .refused r => .refused r

/-- The load of an image whose header and length have passed their checks is up to `configure`. -/
theorem load_of_whole {l : Launch} {image : List Byte} {s : State} (hm : s.mapper = .none)
    (htrainer : (headerByte image 6).getLsbD 2 = false) (hprg : headerByte image 4 ≠ 0) (himage : ImageWhole image) :
    s.load l image = finishLoad (configure (launchState l (cartridgeOf image) s)) := by
  unfold ImageWhole at himage
  simp only [State.load, hm]
  rw [if_neg (by omega), if_neg (by rw [htrainer]; decide), if_neg hprg, if_neg (by omega)]
  cases configure (launchState l (cartridgeOf image) s) with
  | next u => simp only [finishLoad, read16_resetVector]
  | fault f => rfl
  | refused r => rfl

/-- What `configure` answers, by the identifier and the bank count (R446). -/
theorem configure_cases (s : State) :
    (s.cart.mapperId.toNat = 0 → 2 < s.cart.prgBanks → configure s = .fault .tooManyBanksForNoMapper) ∧
    (s.cart.mapperId.toNat = 1 → s.cart.prgBanks < 2 → configure s = .fault .tooFewBanksForMmc1) ∧
    (2 ≤ s.cart.mapperId.toNat → configure s = .fault .unknownMapper) ∧
    (s.cart.mapperId.toNat = 0 ∧ s.cart.prgBanks ≤ 2 ∨ s.cart.mapperId.toNat = 1 ∧ 2 ≤ s.cart.prgBanks →
      ∃ u, configure s = .next u) := by
  have h0 : s.cart.mapperId = 0 ↔ s.cart.mapperId.toNat = 0 := BitVec.toNat_inj.symm
  have h1 : s.cart.mapperId = 1 ↔ s.cart.mapperId.toNat = 1 := BitVec.toNat_inj.symm
  simp only [configure, h0, h1]
  refine ⟨fun e hb => ?_, fun e hb => ?_, fun e => ?_, ?_⟩
  · rw [if_pos e, if_pos hb]
  · rw [if_neg (by omega), if_pos e, if_pos hb]
  · rw [if_neg (by omega), if_neg (by omega)]
  · rintro (⟨e, hb⟩ | ⟨e, hb⟩)
    · rw [if_pos e, if_neg (by omega)]
      exact ⟨_, rfl⟩
    · rw [if_neg (by omega), if_pos e, if_neg (by omega)]
      exact ⟨_, rfl⟩

/-- A second load is refused (R440). -/
theorem load_of_loaded {s : State} (h : s.mapper ≠ .none) (l : Launch) (image : List Byte) :
    s.load l image = .refused (.alreadyLoaded s) := by
  unfold State.load
  split
  · rfl
  · rfl
  · exact absurd ‹_› h

/-- Settles O59: the checks in their order, then those of the mapper the identifier names. -/
theorem loadFailsOnMalformedImages : Obligations.LoadFailsOnMalformedImages := by
  intro l image s h prg chr id
  have hprg : prg = 0 → headerByte image 4 = 0 := fun e => BitVec.eq_of_toNat_eq e
  refine ⟨fun hm => load_of_loaded hm l image, fun hm hlen => ?_,
    fun hm hlen => ⟨fun (ht : (headerByte image 6).getLsbD 2 = true) => ?_,
      fun (ht : (headerByte image 6).getLsbD 2 = false) hz => ?_,
      fun (ht : (headerByte image 6).getLsbD 2 = false) hz => ⟨fun hshort => ?_, fun himage => ?_⟩⟩⟩
  · simp only [State.load, hm, if_pos hlen]
  · simp only [State.load, hm]
    rw [if_neg (by omega), if_pos ht]
  · simp only [State.load, hm]
    rw [if_neg (by omega), if_neg (by rw [ht]; decide), if_pos (hprg hz)]
  · simp only [State.load, hm]
    rw [if_neg (by omega), if_neg (by rw [ht]; decide), if_neg fun e => hz (congrArg BitVec.toNat e)]
    exact if_pos hshort
  · rw [load_of_whole hm ht (fun e => hz (congrArg BitVec.toNat e)) himage]
    have hid : (launchState l (cartridgeOf image) s).cart.mapperId.toNat = id := headerMapperId_toNat image
    obtain ⟨h0, h1, h2, hok⟩ := configure_cases (launchState l (cartridgeOf image) s)
    rw [hid] at h0 h1 h2 hok
    refine ⟨fun e hb => ?_, fun e hb => ?_, fun e => ?_, fun hc => ?_⟩
    · rw [h0 e hb]
      rfl
    · rw [h1 e hb]
      rfl
    · rw [h2 e]
      rfl
    · obtain ⟨u, hu⟩ := hok hc
      rw [hu]
      exact ⟨_, rfl⟩

end Sys2Proof.Machine
end

section
/-! Frames over all instructions (10_state R30-R46, 20_memory R93): what each instruction may change, said once, and the frames
read off it. -/

namespace Sys2Proof.Machine

/-! ## What an instruction may change -/

/-- The kinds of change an instruction makes, PC and bit 5 of SR apart: a register, a flag, the video unit by a read, the stack
page, and a bus write at its effective address. -/
inductive Effect where
  | a
  | x
  | y
  | sp
  | flag (f : Flag)
  | read
  | stack
  | write

/-- The mnemonics that store through a memory mode (R172, R232). -/
def storing : List Mnemonic :=
  [.sta, .stx, .sty, .sax, .tas, .asl, .lsr, .rol, .ror, .inc, .dec, .dcp, .isb, .slo, .rla, .sre, .rra]

/-- Which form may make which change: the writers of each register and flag (R30-R33, R37-R40), a memory operand or a pointer for
a read, a push, a store. -/
def allows (f : Form) : Effect → Prop
  | .a => f.mnemonic ∈ [.ora, .and, .eor, .adc, .sbc, .lda, .pla, .txa, .tya, .lax, .slo, .rla, .sre, .rra, .isb, .usbc] ∨
      f.operand = .acc
  | .x => f.mnemonic ∈ [.ldx, .tax, .tsx, .inx, .dex, .lax]
  | .y => f.mnemonic ∈ [.ldy, .tay, .iny, .dey]
  | .sp => f.mnemonic ∈ [.txs, .tas, .pha, .pla, .php, .plp, .jsr, .rts, .rti, .brk]
  | .flag .n | .flag .z => f.mnemonic ∈ [.ora, .and, .eor, .adc, .sbc, .lda, .ldx, .ldy, .tax, .tay, .txa, .tya, .tsx, .pla,
      .inc, .dec, .inx, .iny, .dex, .dey, .asl, .lsr, .rol, .ror, .lax, .slo, .rla, .sre, .rra, .isb, .usbc, .cmp, .cpx, .cpy,
      .dcp, .bit, .plp, .rti]
  | .flag .v => f.mnemonic ∈ [.adc, .sbc, .rra, .isb, .usbc, .bit, .clv, .plp, .rti]
  | .flag .b => f.mnemonic ∈ [.plp, .rti]
  | .flag .d => f.mnemonic ∈ [.sed, .cld, .plp, .rti]
  | .flag .i => f.mnemonic ∈ [.sei, .cli, .plp, .rti, .brk]
  | .flag .c => f.mnemonic ∈ [.adc, .sbc, .cmp, .cpx, .cpy, .dcp, .asl, .lsr, .rol, .ror, .slo, .rla, .sre, .rra, .isb, .usbc,
      .clc, .sec, .plp, .rti]
  | .read => (∃ m, f.operand = .src (.mem m)) ∨ ∃ a, f.operand = .ind a
  | .stack => f.mnemonic ∈ [.pha, .php, .jsr, .brk]
  | .write => f.mnemonic ∈ storing ∧ ∃ m, f.operand = .src (.mem m)

/-- `P` survives every change that is allowed; a bus write is one at `e`. -/
structure ClosedUnder (allowed : Effect → Prop) (e : Word) (P : State → Prop) : Prop where
  a : allowed .a → ∀ {s} v, P s → P (s.setA v)
  x : allowed .x → ∀ {s} v, P s → P (s.setX v)
  y : allowed .y → ∀ {s} v, P s → P (s.setY v)
  sp : allowed .sp → ∀ {s} v, P s → P (s.setSp v)
  pc : ∀ {s} v, P s → P (s.setPc v)
  flag : ∀ {f}, allowed (.flag f) → ∀ {s} v, P s → P (s.setFlag f v)
  sr : (∀ f, allowed (.flag f)) → ∀ {s} v, P s → P (s.setSr v)
  unused : ∀ {s}, P s → P (forceUnused s)
  read : allowed .read → ∀ {s} v, P s → P (s.setVideo v)
  stack : allowed .stack → ∀ {s} v, P s → P (s.setMem v)
  write : allowed .write → ∀ {v s t}, P s → busWrite e v s = .next t → P t

/-- Where an outcome goes on, it goes on in `P`. -/
def Keeps (P : State → Prop) : Result → Prop
  | .next t => P t
  | .fault _ => True
  | .refused _ => True

theorem keeps_andThen {α : Type} {P : State → Prop} {r : Outcome α} {k : α → Result}
    (h : ∀ v, r = .next v → Keeps P (k v)) : Keeps P (andThen r k) := by
  cases r with
  | next v => exact h v rfl
  | fault f => trivial
  | refused r => trivial

section Operands

variable {P : State → Prop} {s : State} {o : Operand}

theorem keeps_onSource {f : Source → State → Result} (h : P s) (hf : ∀ src, o = .src src → Keeps P (f src s)) :
    Keeps P (onSource f o s) := by
  cases o
  case src src => exact hf src rfl
  all_goals exact h

theorem keeps_onMemory {f : MemMode → State → Result} (h : P s) (hf : ∀ m, o = .src (.mem m) → Keeps P (f m s)) :
    Keeps P (onMemory f o s) := by
  rcases o with _ | _ | _ | ⟨_ | m⟩ | _ | _
  case src.mem => exact hf m rfl
  all_goals exact h

theorem keeps_onAccOrMemory {acc : State → Result} {f : MemMode → State → Result} (h : P s)
    (hacc : o = .acc → Keeps P (acc s)) (hf : ∀ m, o = .src (.mem m) → Keeps P (f m s)) :
    Keeps P (onAccOrMemory acc f o s) := by
  rcases o with _ | _ | _ | ⟨_ | m⟩ | _ | _
  case acc => exact hacc rfl
  case src.mem => exact hf m rfl
  all_goals exact h

theorem keeps_onDisplacement {f : Int → State → Result} (h : P s) (hf : ∀ d, Keeps P (f d s)) :
    Keeps P (onDisplacement f o s) := by
  cases o
  case rel d => exact hf d
  all_goals exact h

end Operands

namespace ClosedUnder

variable {f : Form} {e : Word} {P : State → Prop} (hP : ClosedUnder (allows f) e P)
include hP

theorem nz {s : State} (v : Byte) (h : P s) (hn : allows f (.flag .n) := by simp [allows]) : P (setNZ v s) :=
  hP.flag (f := .z) hn _ (hP.flag hn _ h)

theorem readSource {s : State} {src : Source} (ho : f.operand = .src src) (h : P s) : P (readSource src s).2 := by
  cases src with
  | imm v => exact h
  | mem m => exact readSource_state (.mem m) s ▸ hP.read (.inl ⟨m, ho⟩) _ h

theorem busRead {s : State} {m : MemMode} (ho : f.operand = .src (.mem m)) (a : Word) (h : P s) : P (busRead a s).2 :=
  busRead_state a s ▸ hP.read (.inl ⟨m, ho⟩) _ h

theorem pull {s : State} (h : P s) (hsp : allows f .sp := by simp [allows]) : P (pull s).2 := by
  rw [pull_eq]
  exact hP.sp hsp _ h

theorem push {s : State} (v : Byte) (h : P s) (hm : allows f .stack := by simp [allows])
    (hsp : allows f .sp := by simp [allows]) : P (push v s) :=
  hP.sp hsp _ (hP.stack hm _ h)

theorem add {s : State} (a m : Byte) (h : P s) (hc : allows f (.flag .c) := by simp [allows])
    (hv : allows f (.flag .v) := by simp [allows]) : P (addBytes a m s).2 :=
  hP.flag hv _ (hP.flag hc _ h)

theorem sub {s : State} (a m : Byte) (h : P s) (hc : allows f (.flag .c) := by simp [allows])
    (hv : allows f (.flag .v) := by simp [allows]) : P (subBytes a m s).2 :=
  hP.flag hv _ (hP.flag hc _ h)

theorem compare {s : State} (r m : Byte) (h : P s) (hc : allows f (.flag .c) := by simp [allows])
    (hn : allows f (.flag .n) := by simp [allows]) : P (compareBytes r m s) :=
  hP.flag hn _ (hP.flag hc _ (hP.flag (f := .z) hn _ h))

theorem store {s : State} {m : MemMode} (he : addressOf m s = e) (value : State → Byte) (h : P s)
    (hw : allows f .write) : Keeps P (storeByte m value s) := by
  rw [storeByte_eq, he]
  cases hb : busWrite e (value s) s with
  | next t => exact hP.write hw h hb
  | fault f => trivial
  | refused r => trivial

/-- A read-modify-write and what follows it. -/
theorem modify {s : State} {m : MemMode} (ho : f.operand = .src (.mem m)) (he : addressOf m s = e) (hw : allows f .write)
    {g : Byte → State → Byte × State} {k : Byte × State → Result} (hg : ∀ v {t}, P t → P (g v t).2)
    (hk : ∀ v {t}, P t → Keeps P (k (v, t))) (h : P s) : Keeps P (andThen (modify m g s) k) := by
  rw [modify_eq, andThen_assoc, he]
  refine keeps_andThen fun t ht => ?_
  exact hk _ (hP.write hw (hg _ (hP.busRead ho e h)) ht)

theorem branch {s : State} (c : Bool) (d : Int) (pc0 : Word) (h : P s) : Keeps P (branch c d pc0 s) := by
  cases c
  · exact h
  · exact hP.pc _ h

end ClosedUnder

/-- A store's permission: its mnemonic stores, and its operand is in memory. -/
theorem allows_write {f : Form} {m : MemMode} (ho : f.operand = .src (.mem m)) (hm : f.mnemonic ∈ storing) :
    allows f .write := ⟨hm, m, ho⟩

/-- Every operation makes the changes its form allows, and no other. -/
theorem performOf_keeps {f : Form} {e : Word} {P : State → Prop} (hP : ClosedUnder (allows f) e P) {s : State} (pc0 : Word)
    (he : ∀ m, f.operand = .src (.mem m) → addressOf m s = e) (h : P s) : Keeps P (performOf f pc0 s) := by
  obtain ⟨mn, o⟩ := f
  cases mn
  case ora | and | eor | lda =>
    exact keeps_onSource h fun src ho => hP.a (by simp [allows]) _ (hP.readSource ho h)
  case adc => exact keeps_onSource h fun src ho => hP.a (by simp [allows]) _ (hP.add _ _ (hP.readSource ho h))
  case sbc => exact keeps_onSource h fun src ho => hP.a (by simp [allows]) _ (hP.sub _ _ (hP.readSource ho h))
  case cmp | cpx | cpy => exact keeps_onSource h fun src ho => hP.compare _ _ (hP.readSource ho h)
  case bit =>
    exact keeps_onSource h fun src ho => hP.flag (by simp [allows]) _ (hP.flag (by simp [allows]) _
      (hP.flag (f := .z) (by simp [allows]) _ (hP.readSource ho h)))
  case ldx => exact keeps_onSource h fun src ho => hP.nz _ (hP.x (by simp [allows]) _ (hP.readSource ho h))
  case ldy => exact keeps_onSource h fun src ho => hP.nz _ (hP.y (by simp [allows]) _ (hP.readSource ho h))
  case lax =>
    exact keeps_onSource h fun src ho => hP.x (by simp [allows]) _ (hP.a (by simp [allows]) _ (hP.readSource ho h))
  case asl | lsr | rol | ror =>
    refine keeps_onAccOrMemory h (fun ho => ?_) fun m ho => ?_
    · exact hP.a (.inr ho) _ (hP.flag (f := .c) (by simp [allows]) _ h)
    · exact hP.modify ho (he m ho) (allows_write ho (by simp [storing]))
        (fun v t ht => hP.flag (f := .c) (by simp [allows]) _ ht) (fun v t ht => hP.nz _ ht) h
  case inc | dec =>
    refine keeps_onMemory h fun m ho => ?_
    exact hP.modify ho (he m ho) (allows_write ho (by simp [storing])) (fun v t ht => ht) (fun v t ht => hP.nz _ ht) h
  case inx | dex | tsx => exact hP.nz _ (hP.x (by simp [allows]) _ h)
  case iny | dey => exact hP.nz _ (hP.y (by simp [allows]) _ h)
  case sta | stx | sty | sax =>
    exact keeps_onMemory h fun m ho => hP.store (he m ho) _ h (allows_write ho (by simp [storing]))
  case tax => exact hP.x (by simp [allows]) _ h
  case tay => exact hP.y (by simp [allows]) _ h
  case txa | tya => exact hP.a (by simp [allows]) _ h
  case txs => exact hP.sp (by simp [allows]) _ h
  case pha | php => exact hP.push _ h
  case pla => exact hP.a (by simp [allows]) _ (hP.pull h)
  case plp => exact hP.sr (fun f => by cases f <;> simp [allows]) _ (hP.pull h)
  case clc | sec | cli | sei | clv | cld | sed => exact hP.flag (by simp [allows]) _ h
  case nop | nopStar | alr | anc | ane | arr | jam | las | lxa | sbx | sha | shx | shy => exact h
  case jmp =>
    show Keeps P (jumpOf o s)
    unfold jumpOf
    split
    · exact hP.pc _ h
    · exact hP.pc _ (read16_state _ s ▸ hP.read (.inr ⟨_, rfl⟩) _ h)
    · exact h
  case jsr =>
    show Keeps P (callOf pc0 o s)
    unfold callOf
    split
    · exact hP.pc _ (hP.push _ (hP.push _ h))
    · exact h
  case rts => exact hP.pc _ (hP.pull (hP.pull h))
  case rti => exact hP.pc _ (hP.pull (hP.pull (hP.sr (fun f => by cases f <;> simp [allows]) _ (hP.pull h))))
  case brk =>
    have hframe : ∀ ret status, P (pushFrame ret status s) := fun ret status => hP.push _ (hP.push _ (hP.push _ h))
    show Keeps P (performBrk pc0 s)
    unfold performBrk
    split
    · show P (enterInterrupt _ _ _ _)
      rw [enterInterrupt_eq _ _ (by decide), ← pushFrame_eq]
      exact hP.pc _ (hP.flag (by simp [allows]) _ (hframe _ _))
    · exact hframe _ _
    · exact hframe _ _
  case bpl | bmi | bvc | bvs | bcc | bcs | bne | beq => exact keeps_onDisplacement h fun d => hP.branch _ d pc0 h
  case dcp =>
    refine keeps_onMemory h fun m ho => ?_
    exact hP.modify ho (he m ho) (allows_write ho (by simp [storing])) (fun v t ht => ht) (fun v t ht => hP.compare _ _ ht) h
  case isb =>
    refine keeps_onMemory h fun m ho => ?_
    exact hP.modify ho (he m ho) (allows_write ho (by simp [storing])) (fun v t ht => ht)
      (fun v t ht => hP.a (by simp [allows]) _ (hP.sub _ _ ht)) h
  case slo | rla | sre =>
    refine keeps_onMemory h fun m ho => ?_
    exact hP.modify ho (he m ho) (allows_write ho (by simp [storing]))
      (fun v t ht => hP.flag (f := .c) (by simp [allows]) _ ht) (fun v t ht => hP.a (by simp [allows]) _ ht) h
  case rra =>
    refine keeps_onMemory h fun m ho => ?_
    exact hP.modify ho (he m ho) (allows_write ho (by simp [storing]))
      (fun v t ht => hP.flag (f := .c) (by simp [allows]) _ ht)
      (fun v t ht => hP.a (by simp [allows]) _ (hP.add _ _ ht)) h
  case tas =>
    show Keeps P (tasOf o s)
    unfold tasOf
    split
    · exact hP.store (s := s.setSp (s.a &&& s.x)) (m := .aby _) (he _ rfl) _ (hP.sp (by simp [allows]) _ h)
        (allows_write rfl (by simp [storing]))
    · exact h
  case usbc =>
    show Keeps P (usbcOf o s)
    unfold usbcOf
    split
    · exact hP.a (by simp [allows]) _ (hP.sub _ _ h)
    · exact h

/-- A form with the generic pass may write N and Z. -/
theorem allows_flagPass {f : Form} (h : f.flagPass = true) : allows f (.flag .n) := by
  obtain ⟨mn, o⟩ := f
  cases mn
  case adc | and | eor | isb | lax | lda | ora | pla | rla | rra | sbc | slo | sre | tax | tay | txa | tya | usbc | asl |
    lsr | rol | ror => simp [allows]
  all_goals cases h

/-- The address an operand stores at, where it is in memory. -/
def storeAddress (o : Operand) (s : State) : Word :=
  match o with
  | .src (.mem m) => addressOf m s
  | _ => 0

theorem storeAddress_mem {o : Operand} {m : MemMode} (s : State) (ho : o = .src (.mem m)) : storeAddress o s = addressOf m s := by
  subst ho
  rfl

/-- Every instruction that completes makes the changes its form allows, and no other. -/
theorem exec_keeps {i : Instr} {P : State → Prop} {s t : State}
    (hP : ClosedUnder (allows i.form) (storeAddress i.operand s) P) (h : P s) (hexec : exec i s = .next t) : P t := by
  obtain ⟨-, u, hu, rfl⟩ := exec_next hexec
  have hk := performOf_keeps hP s.pc (s := s.setPc (nextPc i s))
    (fun m ho => (addressOf_setPc m s _).trans (storeAddress_mem s ho).symm) (hP.pc _ h)
  rw [hu] at hk
  unfold finishInstr
  split
  · exact hP.unused (hP.nz _ hk (allows_flagPass ‹_›))
  · exact hP.unused hk

/-! ## The frames -/

/-- A part of the state that no allowed change touches keeps its value. The changes that never touch it need no argument. -/
theorem closedUnder_eq {α : Type} {allowed : Effect → Prop} {e : Word} (g : State → α) {v : α}
    (a : allowed .a → ∀ s w, g (s.setA w) = g s := by intros; rfl)
    (x : allowed .x → ∀ s w, g (s.setX w) = g s := by intros; rfl)
    (y : allowed .y → ∀ s w, g (s.setY w) = g s := by intros; rfl)
    (sp : allowed .sp → ∀ s w, g (s.setSp w) = g s := by intros; rfl)
    (pc : ∀ s w, g (s.setPc w) = g s := by intros; rfl)
    (flag : ∀ f, allowed (.flag f) → ∀ s w, g (s.setFlag f w) = g s := by intros; rfl)
    (sr : (∀ f, allowed (.flag f)) → ∀ s w, g (s.setSr w) = g s := by intros; rfl)
    (unused : ∀ s, g (forceUnused s) = g s := by intros; rfl)
    (read : allowed .read → ∀ s w, g (s.setVideo w) = g s := by intros; rfl)
    (stack : allowed .stack → ∀ s w, g (s.setMem w) = g s := by intros; rfl)
    (write : allowed .write → ∀ s m r w, g (((s.setMem m).setMmc1 r).setVideo w) = g s := by intros; rfl) :
    ClosedUnder allowed e fun s => g s = v where
  a h s w hs := (a h s w).trans hs
  x h s w hs := (x h s w).trans hs
  y h s w hs := (y h s w).trans hs
  sp h s w hs := (sp h s w).trans hs
  pc w hs := (pc _ w).trans hs
  flag h s w hs := (flag _ h s w).trans hs
  sr h s w hs := (sr h s w).trans hs
  unused hs := (unused _).trans hs
  read h s w hs := (read h s w).trans hs
  stack h s w hs := (stack h s w).trans hs
  write h w s t hs hw := by
    rw [busWrite_frame hw]
    exact (write h s _ _ _).trans hs

/-- Settles O53: a register keeps its value where its change is not allowed. -/
theorem registersHaveTheirWriters : Obligations.RegistersHaveTheirWriters := by
  intro i s t hexec
  refine ⟨fun hm ho => ?_, fun hm => ?_, fun hm => ?_, fun hm => ?_⟩
  · exact exec_keeps (closedUnder_eq State.a (a := fun ha => (ha.elim hm ho).elim)) rfl hexec
  · exact exec_keeps (closedUnder_eq State.x (x := fun hx => (hm hx).elim)) rfl hexec
  · exact exec_keeps (closedUnder_eq State.y (y := fun hy => (hm hy).elim)) rfl hexec
  · exact exec_keeps (closedUnder_eq State.sp (sp := fun hsp => (hm hsp).elim)) rfl hexec

/-- A flag keeps its value where its write is not allowed. -/
theorem exec_keeps_flag {i : Instr} {s t : State} {f : Flag} (h : ¬allows i.form (.flag f)) (hexec : exec i s = .next t) :
    t.flag f = s.flag f :=
  exec_keeps (closedUnder_eq (State.flag · f)
    (flag := fun g hg u w => by rw [flag_setFlag, if_neg]; rintro rfl; exact h hg)
    (sr := fun hall => (h (hall f)).elim) (unused := fun u => srFlag_or_unused u.sr f)) rfl hexec

/-- Settles O54: a flag keeps its value where its write is not allowed. -/
theorem flagsHaveTheirWriters : Obligations.FlagsHaveTheirWriters := fun _ _ _ hexec =>
  ⟨fun hm => ⟨exec_keeps_flag (f := .n) hm hexec, exec_keeps_flag (f := .z) hm hexec⟩,
    fun hm => exec_keeps_flag (f := .v) hm hexec, fun hm => exec_keeps_flag (f := .b) hm hexec,
    fun hm => exec_keeps_flag (f := .d) hm hexec, fun hm => exec_keeps_flag (f := .i) hm hexec,
    fun hm => exec_keeps_flag (f := .c) hm hexec⟩

/-! ## Memory -/

/-- Only a shift or a rotate has the accumulator form. -/
theorem mnemonic_of_acc {i : Instr} (h : i.operand = .acc) : i.mnemonic ∈ [.asl, .lsr, .rol, .ror] := by
  cases i <;> simp [Instr.operand, Instr.form] at h <;> simp [Instr.mnemonic, Instr.form]

/-- What a store at `e` leaves of memory and the MMC1 state: RAM apart from `e`, and everything else where `e` is RAM. -/
def StoredAt (e : Word) (s t : State) : Prop :=
  (∀ a, a < 0x8000 → a ≠ e.toNat → t.mem.byteAt a = s.mem.byteAt a) ∧
    (e.toNat < 0x8000 → t.mmc1 = s.mmc1 ∧ ∀ a, a ≠ e.toNat → t.mem.byteAt a = s.mem.byteAt a)

theorem StoredAt.refl (e : Word) (s : State) : StoredAt e s s := ⟨fun _ _ _ => rfl, fun _ => ⟨rfl, fun _ _ => rfl⟩⟩

theorem StoredAt.trans {e : Word} {s t u : State} (h : StoredAt e s t) (h' : StoredAt e t u) : StoredAt e s u :=
  ⟨fun a hl hne => (h'.1 a hl hne).trans (h.1 a hl hne), fun hl =>
    ⟨(h'.2 hl).1.trans (h.2 hl).1, fun a hne => ((h'.2 hl).2 a hne).trans ((h.2 hl).2 a hne)⟩⟩

/-- A bus write that completes is such a store. -/
theorem storedAt_of_busWrite {e : Word} {v : Byte} {s t : State} (hw : busWrite e v s = .next t) : StoredAt e s t := by
  obtain ⟨-, w, rfl⟩ | ⟨-, hl, -, rfl⟩ | ⟨-, -, rfl⟩ | ⟨hrom, -, m, -, ⟨w, rfl⟩ | ⟨low, high, -, -, rfl⟩⟩ := busWrite_next hw
  · exact .refl e s
  · exact ⟨fun a _ hne => byteAt_put_ne hne, fun _ => ⟨rfl, fun a hne => byteAt_put_ne hne⟩⟩
  · exact .refl e _
  · exact ⟨fun a _ _ => rfl, fun hl => by omega⟩
  · refine ⟨fun a hl _ => ?_, fun hl => by omega⟩
    rw [byteAt_copyPrg_below high _ (by omega), byteAt_copyPrg_below low _ hl]
    rfl

/-- Where the stack is not written, memory and the MMC1 state change as a store leaves them. -/
theorem closedUnder_storedAt {allowed : Effect → Prop} {e : Word} (hstack : ¬allowed .stack) (s : State) :
    ClosedUnder allowed e (StoredAt e s) where
  a _ _ _ h := h
  x _ _ _ h := h
  y _ _ _ h := h
  sp _ _ _ h := h
  pc _ h := h
  flag _ _ _ h := h
  sr _ _ _ h := h
  unused h := h
  read _ _ _ h := h
  stack hs := (hstack hs).elim
  write _ _ _ _ h hw := h.trans (storedAt_of_busWrite hw)

/-- An instruction that completes ran its operation, and leaves memory and the MMC1 state as that does. -/
theorem exec_mem {i : Instr} {s t : State} {m : Mnemonic} (hm : i.mnemonic = m) (hexec : exec i s = .next t) :
    ∃ u, performOf ⟨m, i.operand⟩ s.pc (s.setPc (nextPc i s)) = .next u ∧ t.mem = u.mem ∧ t.mmc1 = u.mmc1 := by
  obtain ⟨-, u, hu, rfl⟩ := exec_next hexec
  subst hm
  refine ⟨u, hu, ?_⟩
  unfold finishInstr
  split <;> exact ⟨rfl, rfl⟩

/-- `t` has the MMC1 state of `s`, and its memory apart from the bytes at `stack`. -/
def PushedAt (stack : List Word) (s t : State) : Prop :=
  t.mmc1 = s.mmc1 ∧ ∀ a, (∀ w ∈ stack, a ≠ w.toNat) → t.mem.byteAt a = s.mem.byteAt a

section Pushes

variable {i : Instr} {s t : State}

theorem pushedAt_of_push (hm : i.mnemonic = .pha ∨ i.mnemonic = .php) (hexec : exec i s = .next t) :
    PushedAt [stackAddr s.sp] s t := by
  have hpush : ∃ v, t.mem = s.mem.put (stackAddr s.sp).toNat v ∧ t.mmc1 = s.mmc1 := by
    rcases hm with hm | hm
    all_goals
      obtain ⟨u, hu, hmem, hmmc1⟩ := exec_mem hm hexec
      cases hu
      exact ⟨_, hmem, hmmc1⟩
  obtain ⟨v, hmem, hmmc1⟩ := hpush
  exact ⟨hmmc1, fun a ha => by rw [hmem, byteAt_put_ne (ha _ (by simp))]⟩

theorem pushedAt_of_jsr (hm : i.mnemonic = .jsr) (hexec : exec i s = .next t) :
    PushedAt [stackAddr s.sp, stackAddr (s.sp - 1)] s t := by
  obtain ⟨u, hu, hmem, hmmc1⟩ := exec_mem hm hexec
  change callOf _ i.operand _ = _ at hu
  unfold callOf at hu
  split at hu
  · cases hu
    rw [pushWord_eq] at hmem hmmc1
    refine ⟨hmmc1, fun a ha => ?_⟩
    rw [hmem]
    exact (byteAt_put_ne (ha _ (by simp))).trans (byteAt_put_ne (ha _ (by simp)))
  · cases hu
    exact ⟨hmmc1, fun a _ => by rw [hmem]; rfl⟩

theorem pushedAt_of_brk (hm : i.mnemonic = .brk) (hexec : exec i s = .next t) :
    PushedAt [stackAddr s.sp, stackAddr (s.sp - 1), stackAddr (s.sp - 2)] s t := by
  obtain ⟨u, hu, hmem, hmmc1⟩ := exec_mem hm hexec
  have hframe : ∃ ret status, u.mem = framePushed s.mem s.sp ret status ∧ u.mmc1 = s.mmc1 := by
    change performBrk _ _ = _ at hu
    unfold performBrk at hu
    split at hu
    · rw [enterInterrupt_eq _ _ (by decide)] at hu
      cases hu
      exact ⟨_, _, rfl, rfl⟩
    · rw [pushFrame_eq] at hu
      cases hu
      exact ⟨_, _, rfl, rfl⟩
    · rw [pushFrame_eq] at hu
      cases hu
      exact ⟨_, _, rfl, rfl⟩
  obtain ⟨ret, status, hpushed, hkept⟩ := hframe
  refine ⟨hmmc1.trans hkept, fun a ha => ?_⟩
  rw [hmem, hpushed]
  exact (byteAt_put_ne (ha _ (by simp))).trans
    ((byteAt_put_ne (ha _ (by simp))).trans (byteAt_put_ne (ha _ (by simp))))

end Pushes

/-- An instruction that may neither store nor push leaves memory and the MMC1 state. -/
theorem exec_keeps_mem {i : Instr} {s t : State} (hwrite : ¬allows i.form .write) (hstack : ¬allows i.form .stack)
    (hexec : exec i s = .next t) : (t.mmc1, t.mem) = (s.mmc1, s.mem) :=
  exec_keeps (closedUnder_eq (fun u => (u.mmc1, u.mem)) (stack := fun h => (hstack h).elim)
    (write := fun h => (hwrite h).elim)) rfl hexec

/-- A mnemonic that stores does not push. -/
theorem not_stack_of_storing {f : Form} (hm : f.mnemonic ∈ storing) : ¬allows f .stack := by
  revert hm
  show f.mnemonic ∈ storing → f.mnemonic ∉ [.pha, .php, .jsr, .brk]
  generalize f.mnemonic = m
  cases m <;> decide

/-- Settles O55: an instruction that stores nothing leaves memory, one that stores makes one bus write, and the pushes are those of
PHA, PHP, JSR and BRK. -/
theorem memoryChangesOnlyWhereStored : Obligations.MemoryChangesOnlyWhereStored := by
  intro i s t hexec st same
  refine ⟨fun h => ?_, fun m hm ho => ?_, fun hm => ?_, fun hm => ?_, fun hm => ?_⟩
  · have hno : ¬allows i.form .write ∧ ¬allows i.form .stack := by
      rcases h with hm | ho
      · obtain ⟨hstore, hpush⟩ := not_or.1 (List.mem_append.not.1 hm)
        exact ⟨fun ⟨hw, _⟩ => hstore hw, hpush⟩
      · refine ⟨fun ⟨_, m, hmem⟩ => ?_, not_stack_of_storing ?_⟩
        · cases ho.symm.trans hmem
        · exact (show [.asl, .lsr, .rol, .ror] ⊆ storing by decide) (mnemonic_of_acc ho)
    obtain ⟨hmmc1, hmem⟩ := Prod.mk.inj (exec_keeps_mem hno.1 hno.2 hexec)
    exact ⟨hmmc1, fun a => congrArg (Memory.byteAt · a) hmem⟩
  · have := exec_keeps (closedUnder_storedAt (not_stack_of_storing hm) s) (.refl _ s) hexec
    rwa [storeAddress_mem s ho] at this
  · obtain ⟨hmmc1, hmem⟩ := pushedAt_of_push hm hexec
    exact ⟨hmmc1, fun a ha => hmem a (by simpa using ha)⟩
  · obtain ⟨hmmc1, hmem⟩ := pushedAt_of_jsr hm hexec
    exact ⟨hmmc1, fun a h h' => hmem a (by simpa using ⟨h, h'⟩)⟩
  · obtain ⟨hmmc1, hmem⟩ := pushedAt_of_brk hm hexec
    exact ⟨hmmc1, fun a h h' h'' => hmem a (by simpa using ⟨h, h', h''⟩)⟩

/-! ## The video unit -/

/-- An instruction that may neither read nor store makes no call to the video unit. -/
theorem exec_keeps_video {i : Instr} {s t : State} (hmem : ∀ m, i.operand ≠ .src (.mem m)) (hind : ∀ a, i.operand ≠ .ind a)
    (hexec : exec i s = .next t) : t.video = s.video :=
  exec_keeps (closedUnder_eq State.video
    (read := fun h => (h.elim (fun ⟨m, hm⟩ => hmem m hm) fun ⟨a, ha⟩ => hind a ha).elim)
    (write := fun ⟨_, m, hm⟩ => (hmem m hm).elim)) rfl hexec

/-- Settles O56: the setup and the harness are kept by everything an instruction is made of; only a read or a store calls the video
unit. -/
theorem instructionsLeaveTheHarnessAlone : Obligations.InstructionsLeaveTheHarnessAlone := by
  intro i s t hexec
  obtain ⟨⟨hmapper, hcart, hparams, hbuffer⟩, hcount, hreturns⟩ := exec_sameHarness hexec
  refine ⟨hmapper, hcart, hcount, hreturns, hparams, hbuffer, fun h => ?_⟩
  rcases h with hm | hm | ho | ⟨v, ho⟩ | ⟨d, ho⟩
  · rw [((nopsOnlyAdvance i s (.inr hm)).eq_of_exec hexec).1]
  · obtain ⟨hnop, hrefuse⟩ := unlistedOpcodesFollowTheirPolicy i s hm
    cases hp : s.params.unlisted with
    | nop => rw [((hnop hp).eq_of_exec hexec).1]
    | refuse => cases (hrefuse hp).symm.trans hexec
  · rw [List.mem_pair] at ho
    exact exec_keeps_video (by rcases ho with ho | ho <;> simp [ho]) (by rcases ho with ho | ho <;> simp [ho]) hexec
  · exact exec_keeps_video (by simp [ho]) (by simp [ho]) hexec
  · exact exec_keeps_video (by simp [ho]) (by simp [ho]) hexec

end Sys2Proof.Machine
end
